-- ==== Sys2Proof/Word.lean ====
section
/-! DEFINITION. The widths of the engine's values (spec 00_scope.md R7, R8, R11). Bit 0 is the least significant bit of
every value. No operation of the engine is signed (R9), so BitVec's unsigned reading is the only one used. -/

namespace Sys2Proof

/-- A `u8`: the input symbol (`IN_W` of R7), and the index of a table entry. -/
abbrev Byte := BitVec 8

/-- A `u32`: the CRC register, a table entry, a response's data (`CRC_W`, `TBL_W`, `RSP_W` of R7). -/
abbrev Word32 := BitVec 32

/-- A command word `cmd[15:0]` (`CMD_W` of R7, 30_encoding.md R49). -/
abbrev CmdWord := BitVec 16

end Sys2Proof
end

