-- ==== Sys2Proof/Syntax.lean ====
section
/-! DEFINITION. The commands of spec/opcode_table.json, the five results of the decode function (30_encoding.md R55), and
the assembler's statements and tokens (30_encoding.md R59 to R62). -/

namespace Sys2Proof

/-- The four rows of the opcode map (30_encoding.md R52). -/
inductive Instr where
  /-- `nop` (40_crc_commands.md R68) -/
  | nop
  /-- `crc.init` (R65) -/
  | crcInit
  /-- `crc.byte b` (R66) -/
  | crcByte (b : Byte)
  /-- `crc.read` (R67) -/
  | crcRead
deriving DecidableEq, Repr

/-- What a command word spells (30_encoding.md R55): one of the four commands, or an illegal word. -/
inductive Command where
  | instr (i : Instr)
  /-- `ILLEGAL(w)`: the word spells no command; it has a defined response (60_exceptions.md R83, R84). -/
  | illegal (w : CmdWord)
deriving DecidableEq, Repr

/-- A row of the opcode map (30_encoding.md R52). -/
structure OpcodeRow where
  /-- the bits a word must hold under the mask -/
  pattern : CmdWord
  mask : CmdWord
deriving DecidableEq, Repr

/-- The operand of the pseudo-instruction `crc32` (30_encoding.md R62): a `crc.bytes` list or a `crc.str` string. -/
inductive AsmBytes where
  | list (imms : List Nat)
  | text (cs : List Char)
deriving DecidableEq, Repr

/-- One assembler statement (30_encoding.md R59 to R62). Immediates are as the source text writes them, any number:
a value out of range is an assembly error, which WellFormed.lean checks. -/
inductive AsmStmt where
  | nop
  | crcInit
  | crcByte (imm : Nat)
  | crcRead
  /-- `.word <imm16>`: the raw word -/
  | word (imm : Nat)
  /-- `crc.bytes <imm8>, <imm8>, ...` (R60) -/
  | crcBytes (imms : List Nat)
  /-- `crc.str "<text>"` (R61) -/
  | crcStr (cs : List Char)
  /-- `crc32 <bytes>` (R62) -/
  | crc32 (data : AsmBytes)
deriving DecidableEq, Repr

/-- A token of one line of assembler text (log 12). -/
inductive AsmToken where
  /-- a run of characters: a mnemonic or a number -/
  | run (cs : List Char)
  | comma
  /-- a single-quoted character literal -/
  | chr (c : Char)
  /-- a double-quoted string literal -/
  | str (cs : List Char)
deriving DecidableEq, Repr

/-- Where the tokenizer stands in a line (log 12). Characters already read stand last first. -/
inductive LexMode where
  | between
  | inRun (rev : List Char)
  | inStr (rev : List Char)
  /-- after the opening single quote -/
  | openChr
  /-- after the character of a character literal -/
  | closeChr (c : Char)
deriving DecidableEq, Repr

end Sys2Proof
end

