-- ==== Sys2Proof/WellFormed.lean ====
section
/-! DEFINITION. What is checked of the syntax. A command's only operand is a byte, which its type already bounds
(30_encoding.md R51), so a command has nothing to check; an assembler statement's immediates and text have
(30_encoding.md R59 to R61: a value out of range is an assembly error, not a truncation). -/

namespace Sys2Proof

/-- A command is well formed as it stands: its one operand is a `u8` by type (30_encoding.md R51, log 16). -/
def Instr.wf : Instr → Bool
  | .nop => true
  | .crcInit => true
  | .crcByte _ => true
  | .crcRead => true

/-- `<imm8>` is in 0..255 (30_encoding.md R59). -/
def imm8Ok (n : Nat) : Bool := n < 256

/-- `<imm16>` is in 0..65535 (log 12). -/
def imm16Ok (n : Nat) : Bool := n < 65536

/-- An ASCII character (30_encoding.md R59, R61). -/
def asciiOk (c : Char) : Bool := c.toNat < 128

/-- A `crc.bytes` list: one or more bytes (30_encoding.md R60). -/
def bytesOk (imms : List Nat) : Bool := !imms.isEmpty && imms.all imm8Ok

/-- The operand of `crc32` (30_encoding.md R62). -/
def AsmBytes.wf : AsmBytes → Bool
  | .list imms => bytesOk imms
  | .text cs => cs.all asciiOk

/-- A statement the assembler accepts (30_encoding.md R59 to R62). -/
def AsmStmt.wf : AsmStmt → Bool
  | .nop => true
  | .crcInit => true
  | .crcByte imm => imm8Ok imm
  | .crcRead => true
  | .word imm => imm16Ok imm
  | .crcBytes imms => bytesOk imms
  | .crcStr cs => cs.all asciiOk
  | .crc32 data => data.wf

end Sys2Proof
end

