-- ==== Sys2Proof/Decode.lean ====
section
/-! DEFINITION. The command format (30_encoding.md R49), the decoder (R55), total on every 16-bit word and naming the
illegal ones, and after it the encoder, from the same opcode map (R52). -/

namespace Sys2Proof

/-- `op = cmd[15:8]` (30_encoding.md R49). -/
def opField (w : CmdWord) : Byte := w.extractLsb' 8 8

/-- `data = cmd[7:0]` (30_encoding.md R49). -/
def dataField (w : CmdWord) : Byte := w.extractLsb' 0 8

/-- Format `C`: `op` above `data` (30_encoding.md R49). -/
def formatC (op data : Byte) : CmdWord := (op.setWidth 16 <<< 8) ||| data.setWidth 16

/-- The decode function (30_encoding.md R55). Every word R53 and R54 name is `illegal`; no word is refused. -/
def decode (w : CmdWord) : Command :=
  if opField w = 0x00 ∧ dataField w = 0x00 then .instr .nop
  else if opField w = 0x01 ∧ dataField w = 0x00 then .instr .crcInit
  else if opField w = 0x02 then .instr (.crcByte (dataField w))
  else if opField w = 0x03 ∧ dataField w = 0x00 then .instr .crcRead
  else .illegal w

/-- A legal word: one that spells a command (30_encoding.md R54). -/
def isLegal (w : CmdWord) : Bool :=
  match decode w with
  | .instr _ => true
  | .illegal _ => false

/-- The encoder: the word of a command (30_encoding.md R52, R59). -/
def encode : Instr → CmdWord
  | .nop => formatC 0x00 0x00
  | .crcInit => formatC 0x01 0x00
  | .crcByte b => formatC 0x02 b
  | .crcRead => formatC 0x03 0x00

/-- The row of the opcode map a command belongs to: its `match` and `mask` columns (30_encoding.md R52). -/
def opcodeRow : Instr → OpcodeRow
  | .nop => ⟨0x0000, 0xFFFF⟩
  | .crcInit => ⟨0x0100, 0xFFFF⟩
  | .crcByte _ => ⟨0x0200, 0xFF00⟩
  | .crcRead => ⟨0x0300, 0xFFFF⟩

/-- The opcode map's rows in its order (30_encoding.md R52). -/
def opcodeMap : List OpcodeRow :=
  [⟨0x0000, 0xFFFF⟩, ⟨0x0100, 0xFFFF⟩, ⟨0x0200, 0xFF00⟩, ⟨0x0300, 0xFFFF⟩]

/-- "A word w selects a row when `(w & mask) == match`" (30_encoding.md R52). -/
def OpcodeRow.selects (r : OpcodeRow) (w : CmdWord) : Bool := w &&& r.mask = r.pattern

/-- The instruction the decoder reads from an instruction whose low `nbits` bits are those of `w`; every command is one
16-bit word (30_encoding.md R50). -/
def decodeTableWord (nbits w : Nat) : Option Instr :=
  match decode (BitVec.ofNat 16 (w % 2 ^ nbits)) with
  | .instr i => some i
  | .illegal _ => none

end Sys2Proof
end

