-- ==== Sys2Proof/Config.lean ====
section
/-! DEFINITION. What is fixed for the engine (spec 00_scope.md R7), and the FREE VALUES: opaque constants without a body,
for the values the spec leaves unspecified. Nothing can be proved of what a free value is. -/

namespace Sys2Proof.Config

/-- The block's name and revision (00_scope.md R2). -/
def name : String := "libfat32-crc32-engine rev v7"

/-- The vendor label (00_scope.md R2). -/
def vendor : String := "nanolith"

/-- `POLY`: the reflected polynomial (R7). -/
def poly : Word32 := 0xEDB88320

/-- `INIT`: the register's initial value (R7). -/
def init : Word32 := 0xFFFFFFFF

/-- `XOROUT`: the final XOR value (R7). -/
def xorOut : Word32 := 0xFFFFFFFF

/-- `CHECK`: the CRC of ASCII "123456789" (R7, 41_crc32_function.md R80). -/
def check : Word32 := 0xCBF43926

/-- `N_CTX`: CRC contexts per engine (R7). -/
def contexts : Nat := 1

/-! Each free value is applied to the number of the engine and to its move counter (log 15). -/

/-- FREE VALUE (93_implementation_defined.md U4, log 4): `rsp_kind` while no response is held. -/
opaque idleRspKind : Nat → Nat → BitVec 2

/-- FREE VALUE (93_implementation_defined.md U4, log 4): `rsp_data` while no response is held. -/
opaque idleRspData : Nat → Nat → Word32

/-- FREE VALUE (93_implementation_defined.md U3, log 6): which of the words a host offered is taken, when it changed the
word under its offer. -/
opaque unstablePick : Nat → Nat → Nat

/-- FREE VALUE (60_exceptions.md R99, log 7): `crc` after a power loss, until reset. -/
opaque powerUpCrc : Nat → Nat → Word32

/-- FREE VALUE (60_exceptions.md R99, log 7): `rsp_pending` after a power loss, until reset. -/
opaque powerUpPending : Nat → Nat → Bool

/-- FREE VALUE (60_exceptions.md R99, log 7): `rsp_kind` after a power loss, until reset. It is a constant of its own, so that
nothing relates it to the kind of an idle edge before the loss. -/
opaque powerUpRspKind : Nat → Nat → BitVec 2

/-- FREE VALUE (60_exceptions.md R99, log 7): `rsp_data` after a power loss, until reset, a constant of its own too. -/
opaque powerUpRspData : Nat → Nat → Word32

end Sys2Proof.Config
end

