-- ==== Sys2Proof/Machine/State.lean ====
section
/-! DEFINITION. The machine's state as plain data, the host's moves, the responses, and the reasons a step can stop. -/

namespace Sys2Proof.Machine

/-- The levels the host drives on the input ports at one rising edge of `clk` (70_reset_and_hazards.md R106). -/
structure PortIn where
  /-- `rst`: synchronous reset, active high (R100) -/
  rst : Bool
  /-- `cmd_valid`: the host offers a command (R104) -/
  cmdValid : Bool
  /-- `cmd[15:0]`: the command word (R104) -/
  cmd : CmdWord
  /-- `rsp_ready`: the host takes the response at this edge (R105) -/
  rspReady : Bool
deriving DecidableEq, Repr

/-- The levels the engine drives on the output ports (70_reset_and_hazards.md R106). -/
structure PortOut where
  cmdReady : Bool
  rspValid : Bool
  rspKind : BitVec 2
  rspData : Word32
deriving DecidableEq, Repr

/-- What happens to the engine next: a rising edge of `clk` with the host's levels, or a loss of power
(60_exceptions.md R99, log 7). -/
inductive HostMove where
  | edge (p : PortIn)
  | powerLoss
deriving DecidableEq, Repr

/-- The response kinds the engine produces (30_encoding.md R56). -/
inductive RspKind where
  | ack
  | data
  | illegal
deriving DecidableEq, Repr

/-- One response, a pair of kind and data (30_encoding.md R56). -/
structure Response where
  kind : RspKind
  data : Word32
deriving DecidableEq, Repr

/-- The reasons a step stops with a fault. -/
inductive Fault where
  /-- Raised by `step` when a response is held and the host has no move left: the engine takes no further command, ever
  (60_exceptions.md R91; 93_implementation_defined.md U9 'stuck'; log 8). SAFE: the machine stops where the hardware hangs. -/
  | hang
  /-- Raised by a clock edge at which the host receives `rsp_kind = 0b11`, which it treats as a fault of the engine
  (30_encoding.md R57; 93_implementation_defined.md U5; log 9). SAFE: no state that a run reaches raises it. -/
  | reservedResponse
deriving DecidableEq, Repr

/-- The reasons a step is refused. -/
inductive Refusal where
  /-- Raised by `exec` for an instruction without a meaning; every instruction has one, so nothing raises it. SAFE. -/
  | notModelled (mnemonic : String)
  /-- Raised by a clock edge with `rst = 0` before the first reset after power-up: the state is unspecified there
  (60_exceptions.md R99; 93_implementation_defined.md U2 'refuse'; log 7). SAFE: nothing is claimed of such an edge. -/
  | beforeFirstReset
deriving DecidableEq, Repr

/-- The engine's state (10_state.md R17), the model's record of the points the spec leaves open, and the host's moves to
come. The table `T` is a constant, not state (R17): Machine/Table.lean. -/
structure State where
  /-- `crc`, the CRC register (10_state.md R18) -/
  crc : Word32
  /-- `rsp_pending`: a response is held that the host has not yet taken (10_state.md R27) -/
  rspPending : Bool
  /-- `rsp_kind` (10_state.md R17); unspecified while `rspPending` is false -/
  rspKind : BitVec 2
  /-- `rsp_data` (10_state.md R17); unspecified while `rspPending` is false -/
  rspData : Word32
  /-- the engine has been reset since it last got power (60_exceptions.md R99, R102 of 70_reset_and_hazards.md; log 7) -/
  known : Bool
  /-- edges that must still pass before the table is available (70_reset_and_hazards.md R103; log 5) -/
  fillLeft : Nat
  /-- MODEL's field: the implementation's fill time after the first reset, zero for a ROM
  (93_implementation_defined.md U1 'parameter'; log 5) -/
  fillTime : Nat
  /-- MODEL's field: the words shown on `cmd` at the earlier edges of the offer not yet taken, oldest first
  (93_implementation_defined.md U3; log 6) -/
  offered : List CmdWord
  /-- MODEL's field: the host's moves to come, earliest first; after the last one the input ports stay low (log 2) -/
  host : List HostMove
  /-- MODEL's field: the number of this engine among the instances of a system, an argument of the free values (log 15) -/
  engine : Nat
  /-- MODEL's field: the number of moves so far, an argument of the free values (log 15) -/
  tick : Nat
deriving DecidableEq, Repr

/-- The machine right after reset (10_state.md R29): `crc = 0xFFFFFFFF`, no response held, the reference implementation's
table ROM available at the first edge (70_reset_and_hazards.md R103), no move of the host listed (log 2). `rspKind` and
`rspData`, unspecified there, are 0 by log 3; `engine` and `tick` are 0 by log 15. -/
def State.reset : State where
  crc := 0xFFFFFFFF
  rspPending := false
  rspKind := 0
  rspData := 0
  known := true
  fillLeft := 0
  fillTime := 0
  offered := []
  host := []
  engine := 0
  tick := 0

end Sys2Proof.Machine
end

