-- ==== Sys2Proof/Machine/Flags.lean ====
section
/-! DEFINITION. The engine has no flags, condition codes or predicates (10_state.md R25). The only status of a command is the
kind of its response, whose two-bit codes stand here (30_encoding.md R56, R57). -/

namespace Sys2Proof.Machine

/-- The code on `rsp_kind` (30_encoding.md R56). -/
def RspKind.code : RspKind → BitVec 2
  | .ack => 0b00
  | .data => 0b01
  | .illegal => 0b10

/-- The kind a host reads from `rsp_kind`; `0b11` is reserved and is read as no kind (30_encoding.md R57). -/
def RspKind.ofCode (c : BitVec 2) : Option RspKind :=
  if c = 0b00 then some .ack
  else if c = 0b01 then some .data
  else if c = 0b10 then some .illegal
  else none

/-- The response a host reads from `rsp_kind` and `rsp_data` (30_encoding.md R56, R57). -/
def Response.ofPorts (kind : BitVec 2) (data : Word32) : Option Response :=
  (RspKind.ofCode kind).map fun k => ⟨k, data⟩

end Sys2Proof.Machine
end

