-- ==== Sys2Proof/Machine/Operands.lean ====
section
/-! DEFINITION. Operand assembly: the engine has one operand form, the unsigned byte `b = cmd[7:0]`, zero-extended
(30_encoding.md R51), and one address computation, the table index (40_crc_commands.md R66). -/

namespace Sys2Proof.Machine

/-- `zext_32(v)` of a byte (00_scope.md R9, 30_encoding.md R51). -/
def zextByte (b : Byte) : Word32 := b.setWidth 32

/-- `zext_32(w)` of a command word, for the ILLEGAL response (00_scope.md R9, 60_exceptions.md R83). -/
def zextWord (w : CmdWord) : Word32 := w.setWidth 32

/-- The index of the table read: `(crc ^ zext_32(b)) & 0xFF` (40_crc_commands.md R66). It is in 0..255 by the mask
(00_scope.md R12). -/
def tableIndex (crc : Word32) (b : Byte) : Byte := ((crc ^^^ zextByte b) &&& 0xFF).setWidth 8

/-- `Update(r, b) = T[(r ^ zext_32(b)) & 0xFF] ^ (r >> 8)` (41_crc32_function.md R71, 40_crc_commands.md R66). -/
def updateCrc (crc : Word32) (b : Byte) : Word32 := memReadT (tableIndex crc b) ^^^ (crc >>> 8)

/-- The value READ returns: `crc ^ 0xFFFFFFFF` (40_crc_commands.md R67). -/
def finalXor (crc : Word32) : Word32 := crc ^^^ Config.xorOut

end Sys2Proof.Machine
end

