-- ==== Sys2Proof/Machine/Ops.lean ====
section
/-! DEFINITION. The named operations on the state: the register write, the one response of a command, the one exception, and
what the response register holds when no response is held. -/

namespace Sys2Proof.Machine

/-- `crc <- v` (00_scope.md R10). -/
def State.setCrc (s : State) (v : Word32) : State := { s with crc := v }

/-- `respond(kind, data)`: the command's one response goes into the response holding register
(00_scope.md R10, 70_reset_and_hazards.md R105). -/
def State.respond (s : State) (k : RspKind) (d : Word32) : State :=
  { s with rspPending := true, rspKind := k.code, rspData := d }

/-- `raise IllegalCommand(w)`, the engine's only exception (60_exceptions.md R83): the ILLEGAL response with the whole
word, and no other change. There is no trap entry, no saved state and no mode (R87), and so no return (R88). -/
def raiseIllegal (w : CmdWord) (s : State) : Host.Outcome State Fault Refusal :=
  .next (s.respond .illegal (zextWord w))

/-- No response is held: `rsp_pending <- 0`, and `rsp_kind` and `rsp_data` are unspecified from here on, so they are free
values (70_reset_and_hazards.md R105, R106; 93_implementation_defined.md U4; log 4). -/
def State.dropResponse (s : State) : State :=
  { s with
    rspPending := false
    rspKind := Config.idleRspKind s.engine s.tick
    rspData := Config.idleRspData s.engine s.tick }

/-- The response held, as a host reads it; none while `rsp_pending = 0` (70_reset_and_hazards.md R105, R106). -/
def State.heldResponse (s : State) : Option Response :=
  if s.rspPending then Response.ofPorts s.rspKind s.rspData else none

end Sys2Proof.Machine
end

