-- ==== Sys2Proof/Machine/Crc.lean ====
section
/-! DEFINITION. The meanings of the four commands (40_crc_commands.md R65 to R68). Each command is performed in one piece and
has exactly one response (20_memory.md R41, 30_encoding.md R56). -/

namespace Sys2Proof.Machine

/-- NOP (40_crc_commands.md R68): `respond(ACK, 0)`; crc is not written. -/
def execNop (s : State) : Host.Outcome State Fault Refusal :=
  .next (s.respond .ack 0x00000000)

/-- INIT (40_crc_commands.md R65): `crc <- 0xFFFFFFFF; respond(ACK, 0)`. -/
def execCrcInit (s : State) : Host.Outcome State Fault Refusal :=
  .next ((s.setCrc Config.init).respond .ack 0x00000000)

/-- BYTE (40_crc_commands.md R66): `crc <- T[(crc ^ b) & 0xFF] ^ (crc >> 8); respond(ACK, 0)`. -/
def execCrcByte (b : Byte) (s : State) : Host.Outcome State Fault Refusal :=
  .next ((s.setCrc (updateCrc s.crc b)).respond .ack 0x00000000)

/-- READ (40_crc_commands.md R67): `respond(DATA, crc ^ 0xFFFFFFFF)`; crc is not written. -/
def execCrcRead (s : State) : Host.Outcome State Fault Refusal :=
  .next (s.respond .data (finalXor s.crc))

end Sys2Proof.Machine
end

