-- ==== Sys2Proof/Machine/Ports.lean ====
section
/-! DEFINITION. The port level: what one rising edge of `clk` does (70_reset_and_hazards.md R100 to R106), the word an edge
takes, and a power loss (60_exceptions.md R99). -/

namespace Sys2Proof.Machine

/-- The table is available: a ROM, or a RAM whose fill is complete (70_reset_and_hazards.md R103). -/
def State.tableAvailable (s : State) : Bool := s.fillLeft = 0

/-- `cmd_ready`: "1 exactly when `rsp_pending = 0`, the table is available, and `rst = 0`" (70_reset_and_hazards.md R104). -/
def State.cmdReady (s : State) (p : PortIn) : Bool :=
  !s.rspPending && s.tableAvailable && !p.rst

/-- `rsp_valid` equals `rsp_pending` (70_reset_and_hazards.md R105). -/
def State.rspValid (s : State) : Bool := s.rspPending

/-- The output ports (70_reset_and_hazards.md R106). While `rsp_valid = 0` the register's kind and data are free values
(log 4; right after `State.reset` the values of log 3), so nothing is known of those two ports then. -/
def State.outputs (s : State) (p : PortIn) : PortOut where
  cmdReady := s.cmdReady p
  rspValid := s.rspValid
  rspKind := s.rspKind
  rspData := s.rspData

/-- A command is taken at an edge with `rst = 0`, `cmd_valid = 1` and `cmd_ready = 1` (70_reset_and_hazards.md R104). -/
def State.takesCommand (s : State) (p : PortIn) : Bool :=
  !p.rst && p.cmdValid && s.cmdReady p

/-- A response is taken at an edge with `rsp_valid = 1` and `rsp_ready = 1` (70_reset_and_hazards.md R105, log 10). -/
def State.givesResponse (s : State) (p : PortIn) : Bool := s.rspValid && p.rspReady

/-- The word an edge takes: the value of `cmd` at that edge where the host held it through its offer
(70_reset_and_hazards.md R104); where the host changed it, one of the words it offered, and which one is a free value
(93_implementation_defined.md U3, log 6). -/
def State.takenWord (s : State) (p : PortIn) : CmdWord :=
  if s.offered.all (fun w => w = p.cmd) then p.cmd
  else (s.offered ++ [p.cmd]).getD (Config.unstablePick s.engine s.tick % (s.offered.length + 1)) p.cmd

/-- What every edge that takes no command records: the move is done, and the offer in progress is one word longer, or
over where `cmd_valid = 0` (93_implementation_defined.md U3, log 6). -/
def State.sampled (s : State) (p : PortIn) : State :=
  { s with
    offered := if p.cmdValid then s.offered ++ [p.cmd] else []
    tick := s.tick + 1 }

/-- What the edge that takes a command records before the command is performed: the offer is over. -/
def State.accepted (s : State) : State := { s with offered := [], tick := s.tick + 1 }

/-- A rising edge with `rst = 1` (70_reset_and_hazards.md R100): `crc <- 0xFFFFFFFF`, a response not yet taken is discarded,
no command is taken, and a command the host was offering, at this edge too, is untaken and its offer over: the host must
offer it again after reset (R101). The first reset after power-up starts the table's fill, a later one does not restart it
(R103, log 5). -/
def State.resetEdge (s : State) (p : PortIn) : State :=
  ({ s.sampled p with
      crc := Config.init
      known := true
      offered := []
      fillLeft := if s.known then s.fillLeft else s.fillTime }).dropResponse

/-- The edge at which the host takes the response: `rsp_pending <- 0` (70_reset_and_hazards.md R105). -/
def State.releaseEdge (s : State) (p : PortIn) : State := (s.sampled p).dropResponse

/-- An edge at which the response stays held: its kind and data stay stable and no command is taken
(70_reset_and_hazards.md R105). -/
def State.waitEdge (s : State) (p : PortIn) : State := s.sampled p

/-- An edge of the table's fill: `cmd_ready = 0` (70_reset_and_hazards.md R103). -/
def State.fillEdge (s : State) (p : PortIn) : State :=
  ({ s.sampled p with fillLeft := s.fillLeft - 1 }).dropResponse

/-- An edge at which the engine is ready and `cmd_valid = 0`: it issues nothing (70_reset_and_hazards.md R104), and the
engine holds its state (60_exceptions.md R99). -/
def State.quietEdge (s : State) (p : PortIn) : State := (s.sampled p).dropResponse

/-- The engine performs the word it takes (40_crc_commands.md R64): the command it spells, or the one exception
(60_exceptions.md R83). -/
def performWord (w : CmdWord) (s : State) : Host.Outcome State Fault Refusal :=
  match decode w with
  | .instr i => exec i s
  | .illegal v => raiseIllegal v s

/-- The edge at which the host takes the response; a host that receives the reserved kind treats it as a fault of the
engine (30_encoding.md R57, log 9). -/
def deliverResponse (p : PortIn) (s : State) : Host.Outcome State Fault Refusal :=
  match s.heldResponse with
  | none => .fault .reservedResponse
  | some _ => .next (s.releaseEdge p)

/-- One rising edge of `clk` (70_reset_and_hazards.md R100 to R105). Reset wins over everything (R101); before the first
reset after power-up nothing is specified (60_exceptions.md R99); a held response keeps the engine from taking a command
(R105); so does a fill in progress (R103). -/
def clockEdge (p : PortIn) (s : State) : Host.Outcome State Fault Refusal :=
  if p.rst then .next (s.resetEdge p)
  else if !s.known then .refused .beforeFirstReset
  else if s.rspPending then
    if p.rspReady then deliverResponse p s else .next (s.waitEdge p)
  else if s.fillLeft ≠ 0 then .next (s.fillEdge p)
  else if p.cmdValid then performWord (s.takenWord p) s.accepted
  else .next (s.quietEdge p)

/-- Power is lost: the engine's state is unknown until reset (60_exceptions.md R99), so its registers are free values, of
constants that no other operation uses: nothing relates them to the values before the loss. That the loss is a move, and that
a RAM table must be filled again after the next reset, is the model's DESIGN CHOICE (log 7). -/
def State.losePower (s : State) : State :=
  { s with
    crc := Config.powerUpCrc s.engine s.tick
    rspPending := Config.powerUpPending s.engine s.tick
    rspKind := Config.powerUpRspKind s.engine s.tick
    rspData := Config.powerUpRspData s.engine s.tick
    known := false
    fillLeft := s.fillTime
    tick := s.tick + 1 }

/-- The input ports when the host does nothing: all low (log 2). -/
def lowPorts : PortIn := ⟨false, false, 0x0000, false⟩

/-- The host offers the word `w` (70_reset_and_hazards.md R104). -/
def offerPorts (w : CmdWord) : PortIn := ⟨false, true, w, false⟩

/-- The host takes the response (70_reset_and_hazards.md R105). -/
def takePorts : PortIn := ⟨false, false, 0x0000, true⟩

/-- The host asserts reset (70_reset_and_hazards.md R100). -/
def resetPorts : PortIn := ⟨true, false, 0x0000, false⟩

/-- The next move of the host's list, which then is done. -/
def performMove (m : HostMove) (s : State) : Host.Outcome State Fault Refusal :=
  match m with
  | .edge p => clockEdge p s
  | .powerLoss => .next s.losePower

/-- The host has no move left (log 2, log 8): where a response is held the engine hangs, "a state in which the engine has no
step until the host moves" (60_exceptions.md R91); else the ports stay low, which issues nothing (70_reset_and_hazards.md
R104). -/
def hostSilent (s : State) : Host.Outcome State Fault Refusal :=
  if s.known && s.rspPending then .fault .hang else clockEdge lowPorts s

/-- `s` with the host offering `w` at the next edge and the engine ready to take it: no response held, the table available,
the engine reset since power-up, no earlier word under the offer (log 2). -/
def State.offerNext (s : State) (w : CmdWord) : State :=
  { s with
    rspPending := false
    known := true
    fillLeft := 0
    offered := []
    host := .edge (offerPorts w) :: s.host.drop 1 }

end Sys2Proof.Machine
end

