-- ==== Sys2Proof/Machine/Step.lean ====
section
/-! DEFINITION. One step of the machine: the next move of the host's list, which is one rising edge of `clk`, or a power loss
(log 1). -/

namespace Sys2Proof.Machine

/-- One step (70_reset_and_hazards.md R100 to R105). An edge that takes a command performs it in one piece, which is the
transaction level's step (00_scope.md R16, 40_crc_commands.md R64). -/
def step (s : State) : Host.Outcome State Fault Refusal :=
  match s.host with
  | [] => hostSilent s
  | m :: rest => performMove m { s with host := rest }

/-- `s` with the command whose low `nbits` bits are those of `w` offered by the host at the next edge (log 2). -/
def State.withFetchWord (s : State) (nbits w : Nat) : State :=
  s.offerNext (BitVec.ofNat 16 (w % 2 ^ nbits))

end Sys2Proof.Machine
end

