-- ==== Sys2Proof/Machine/Assembler.lean ====
section
/-! DEFINITION. The assembler and the disassembler (30_encoding.md R59 to R63), on lists of characters. What R59 to R63 do not
say of the text's form is the model's choice (log 12). -/

namespace Sys2Proof.Machine

/-- The mnemonics of 30_encoding.md R59 to R62, lower case. -/
def mnNop : List Char := ['n', 'o', 'p']
def mnInit : List Char := ['c', 'r', 'c', '.', 'i', 'n', 'i', 't']
def mnByte : List Char := ['c', 'r', 'c', '.', 'b', 'y', 't', 'e']
def mnRead : List Char := ['c', 'r', 'c', '.', 'r', 'e', 'a', 'd']
def mnWord : List Char := ['.', 'w', 'o', 'r', 'd']
def mnBytes : List Char := ['c', 'r', 'c', '.', 'b', 'y', 't', 'e', 's']
def mnStr : List Char := ['c', 'r', 'c', '.', 's', 't', 'r']
def mnCrc32 : List Char := ['c', 'r', 'c', '3', '2']

/-- The word of one byte of a message: `crc.byte b` (30_encoding.md R60, R61). -/
def byteWord (n : Nat) : CmdWord := encode (.crcByte (BitVec.ofNat 8 n))

/-- The bytes of a `crc.bytes` list or a `crc.str` string (30_encoding.md R60 to R62). -/
def AsmBytes.values : AsmBytes → List Nat
  | .list imms => imms
  | .text cs => cs.map Char.toNat

/-- The words a statement expands to (30_encoding.md R59 to R62). -/
def AsmStmt.expand : AsmStmt → List CmdWord
  | .nop => [encode .nop]
  | .crcInit => [encode .crcInit]
  | .crcByte imm => [byteWord imm]
  | .crcRead => [encode .crcRead]
  | .word imm => [BitVec.ofNat 16 imm]
  | .crcBytes imms => imms.map byteWord
  | .crcStr cs => cs.map fun c => byteWord c.toNat
  | .crc32 data => encode .crcInit :: ((AsmBytes.values data).map byteWord ++ [encode .crcRead])

/-- A statement's words; none is an assembly error (30_encoding.md R59). -/
def assembleStmt (st : AsmStmt) : Option (List CmdWord) :=
  if st.wf then some (AsmStmt.expand st) else none

/-- White space between tokens (log 12). -/
def isBlank (c : Char) : Bool := c = ' ' || c = '\t' || c = '\r'

/-- The tokens of a line; `;` outside a literal starts a comment (30_encoding.md R59, log 12). None is an assembly error. -/
def tokenize : List Char → LexMode → Option (List AsmToken)
  | [], .between => some []
  | [], .inRun rev => some [.run rev.reverse]
  | [], .inStr _ => none
  | [], .openChr => none
  | [], .closeChr _ => none
  | c :: cs, .between =>
    if isBlank c then tokenize cs .between
    else if c = ';' then some []
    else if c = ',' then (tokenize cs .between).map fun ts => .comma :: ts
    else if c = '"' then tokenize cs (.inStr [])
    else if c = '\'' then tokenize cs .openChr
    else tokenize cs (.inRun [c])
  | c :: cs, .inRun rev =>
    if isBlank c then (tokenize cs .between).map fun ts => .run rev.reverse :: ts
    else if c = ';' then some [.run rev.reverse]
    else if c = ',' then (tokenize cs .between).map fun ts => .run rev.reverse :: .comma :: ts
    else if c = '"' then none
    else if c = '\'' then none
    else tokenize cs (.inRun (c :: rev))
  | c :: cs, .inStr rev =>
    if c = '"' then (tokenize cs .between).map fun ts => .str rev.reverse :: ts
    else tokenize cs (.inStr (c :: rev))
  | c :: cs, .openChr => tokenize cs (.closeChr c)
  | c :: cs, .closeChr d =>
    if c = '\'' then (tokenize cs .between).map fun ts => .chr d :: ts else none

/-- A decimal digit. -/
def decDigit (c : Char) : Option Nat :=
  if 48 ≤ c.toNat ∧ c.toNat ≤ 57 then some (c.toNat - 48) else none

/-- A hexadecimal digit, of either case (log 12). -/
def hexDigit (c : Char) : Option Nat :=
  if 48 ≤ c.toNat ∧ c.toNat ≤ 57 then some (c.toNat - 48)
  else if 65 ≤ c.toNat ∧ c.toNat ≤ 70 then some (c.toNat - 55)
  else if 97 ≤ c.toNat ∧ c.toNat ≤ 102 then some (c.toNat - 87)
  else none

/-- The number that digits spell, the most significant first, after the digits that made `acc`. -/
def digitsValue (digit : Char → Option Nat) (base : Nat) : List Char → Nat → Option Nat
  | [], acc => some acc
  | c :: cs, acc =>
    match digit c with
    | some d => digitsValue digit base cs (acc * base + d)
    | none => none

/-- A decimal or `0x` hexadecimal number (30_encoding.md R59). -/
def numeral : List Char → Option Nat
  | [] => none
  | '0' :: 'x' :: c :: cs => digitsValue hexDigit 16 (c :: cs) 0
  | c :: cs => digitsValue decDigit 10 (c :: cs) 0

/-- An immediate: a number, or a single-quoted ASCII character (30_encoding.md R59). -/
def immValue : AsmToken → Option Nat
  | .run cs => numeral cs
  | .chr c => if asciiOk c then some c.toNat else none
  | .comma => none
  | .str _ => none

/-- One or more immediates with commas between them (30_encoding.md R60). -/
def immList : List AsmToken → Option (List Nat)
  | [] => none
  | [t] => (immValue t).map fun n => [n]
  | t :: .comma :: rest =>
    match immValue t, immList rest with
    | some n, some ns => some (n :: ns)
    | _, _ => none
  | _ :: _ :: _ => none

/-- The operand of `crc32` (30_encoding.md R62). -/
def parseBytes : List AsmToken → Option AsmBytes
  | [.str cs] => some (.text cs)
  | ts => (immList ts).map .list

/-- The statement with a mnemonic and its operand tokens (30_encoding.md R59 to R62). -/
def parseNamed (m : List Char) (args : List AsmToken) : Option AsmStmt :=
  if m = mnNop then (if args = [] then some .nop else none)
  else if m = mnInit then (if args = [] then some .crcInit else none)
  else if m = mnRead then (if args = [] then some .crcRead else none)
  else if m = mnByte then
    match args with
    | [t] => (immValue t).map .crcByte
    | _ => none
  else if m = mnWord then
    match args with
    | [t] => (immValue t).map .word
    | _ => none
  else if m = mnBytes then (immList args).map .crcBytes
  else if m = mnStr then
    match args with
    | [.str cs] => some (.crcStr cs)
    | _ => none
  else if m = mnCrc32 then (parseBytes args).map .crc32
  else none

/-- The statement of a line's tokens. -/
def parseStmt : List AsmToken → Option AsmStmt
  | .run m :: args => parseNamed m args
  | _ => none

/-- The words of one line of text; an empty or comment line has none, and `none` is an assembly error (30_encoding.md R59). -/
def assembleLine (cs : List Char) : Option (List CmdWord) :=
  match tokenize cs .between with
  | none => none
  | some [] => some []
  | some (t :: ts) => (parseStmt (t :: ts)).bind assembleStmt

/-- The lines of a text, "one command per line" (30_encoding.md R59). -/
def linesOf : List Char → List (List Char)
  | [] => [[]]
  | c :: cs =>
    if c = '\n' then [] :: linesOf cs
    else
      match linesOf cs with
      | [] => [[c]]
      | l :: ls => (c :: l) :: ls

/-- The words of lines, in order. -/
def assembleLines : List (List Char) → Option (List CmdWord)
  | [] => some []
  | l :: ls =>
    match assembleLine l, assembleLines ls with
    | some ws, some rest => some (ws ++ rest)
    | _, _ => none

/-- The words of a whole text (30_encoding.md R59). -/
def assembleText (cs : List Char) : Option (List CmdWord) := assembleLines (linesOf cs)

/-- An upper-case hexadecimal digit (30_encoding.md R63). -/
def hexChar (n : Nat) : Char := if n < 10 then Char.ofNat (48 + n) else Char.ofNat (55 + n)

/-- Two hexadecimal digits of a byte (30_encoding.md R63). -/
def hexByte (b : Byte) : List Char := [hexChar (b.toNat / 16), hexChar (b.toNat % 16)]

/-- The disassembler (30_encoding.md R63): a legal word by its mnemonic, any other word as `.word 0x` and four hexadecimal
digits (upper case by log 12). -/
def disassemble (w : CmdWord) : List Char :=
  match decode w with
  | .instr .nop => mnNop
  | .instr .crcInit => mnInit
  | .instr (.crcByte b) => mnByte ++ [' ', '0', 'x'] ++ hexByte b
  | .instr .crcRead => mnRead
  | .illegal v => mnWord ++ [' ', '0', 'x'] ++ hexByte (opField v) ++ hexByte (dataField v)

end Sys2Proof.Machine
end

