-- ==== Sys2Proof/Machine/Crc32.lean ====
section
/-! DEFINITION. The whole-buffer function and the functions its laws speak of (41_crc32_function.md R71, R76, R79). -/

namespace Sys2Proof.Machine

/-- `Raw(r, d)`: the register after the bytes of `d`, in order (41_crc32_function.md R71). -/
def rawCrc : Word32 → List Byte → Word32
  | r, [] => r
  | r, b :: d => rawCrc (updateCrc r b) d

/-- `crc32(d) = Raw(0xFFFFFFFF, d) ^ 0xFFFFFFFF` (41_crc32_function.md R71). -/
def crc32 (d : List Byte) : Word32 := finalXor (rawCrc Config.init d)

/-- `Serial(r, b)`: eight steps, one bit at a time (41_crc32_function.md R76). -/
def serialUpdate (r : Word32) (b : Byte) : Word32 := bitSteps 8 (r ^^^ zextByte b)

/-- `le32(v)`: the four bytes of `v`, least significant first (41_crc32_function.md R79, 20_memory.md R38). -/
def le32 (v : Word32) : List Byte :=
  [v.extractLsb' 0 8, v.extractLsb' 8 8, v.extractLsb' 16 8, v.extractLsb' 24 8]

/-- The bytewise XOR of two sequences of one length (41_crc32_function.md R78). -/
def xorBytes (a b : List Byte) : List Byte := List.zipWith (fun x y => x ^^^ y) a b

end Sys2Proof.Machine
end

