-- ==== Sys2Proof/Machine/Transaction.lean ====
section
/-! DEFINITION. The transaction level, the level a model must implement (00_scope.md R16): `Step` and `Run` as functions of the
CRC register alone (40_crc_commands.md R64, R69), the table reads of a sequence (20_memory.md R33), and the message a sequence
of words leaves in progress (41_crc32_function.md R75). Machine/Step.lean refines it (70_reset_and_hazards.md R107). -/

namespace Sys2Proof.Machine

/-- What one command does to the register, and its response (40_crc_commands.md R64). -/
def txCommand (crc : Word32) : Command → Word32 × Response
  | .instr .nop => (crc, ⟨.ack, 0x00000000⟩)
  | .instr .crcInit => (0xFFFFFFFF, ⟨.ack, 0x00000000⟩)
  | .instr (.crcByte b) => (memReadT (tableIndex crc b) ^^^ (crc >>> 8), ⟨.ack, 0x00000000⟩)
  | .instr .crcRead => (crc, ⟨.data, crc ^^^ 0xFFFFFFFF⟩)
  | .illegal w => (crc, ⟨.illegal, zextWord w⟩)

/-- `Step(crc, w)` (40_crc_commands.md R64). -/
def txStep (crc : Word32) (w : CmdWord) : Word32 × Response := txCommand crc (decode w)

/-- `Run(crc, ws)` (40_crc_commands.md R69). -/
def txRun : Word32 → List CmdWord → Word32 × List Response
  | crc, [] => (crc, [])
  | crc, w :: rest =>
    let (c1, r1) := txStep crc w
    let (cn, rs) := txRun c1 rest
    (cn, r1 :: rs)

/-- The index a command reads the table at: only BYTE reads it, once (20_memory.md R33, 41_crc32_function.md R82). -/
def commandRead (crc : Word32) : Command → List Byte
  | .instr (.crcByte b) => [tableIndex crc b]
  | .instr .nop => []
  | .instr .crcInit => []
  | .instr .crcRead => []
  | .illegal _ => []

/-- The indices a sequence of words reads the table at, in order. -/
def txReads : Word32 → List CmdWord → List Byte
  | _, [] => []
  | crc, w :: rest => commandRead crc (decode w) ++ txReads (txStep crc w).1 rest

/-- The message in progress after one more command: INIT starts one, BYTE adds to it, nothing else changes it
(41_crc32_function.md R75, 60_exceptions.md R94). -/
def messageAfter (msg : List Byte) : Command → List Byte
  | .instr .crcInit => []
  | .instr (.crcByte b) => msg ++ [b]
  | .instr .nop => msg
  | .instr .crcRead => msg
  | .illegal _ => msg

/-- The bytes given since the last INIT of a sequence of words, where `msg` were given before it
(10_state.md R18, 41_crc32_function.md R75). -/
def messageIn (msg : List Byte) (ws : List CmdWord) : List Byte :=
  ws.foldl (fun m w => messageAfter m (decode w)) msg

/-- The commands of the whole-buffer function (41_crc32_function.md R72). -/
def crc32Words (d : List Byte) : List CmdWord :=
  encode .crcInit :: (d.map (fun b => encode (.crcByte b)) ++ [encode .crcRead])

end Sys2Proof.Machine
end

