-- ==== Sys2Proof/Machine/Run.lean ====
section
/-! DEFINITION. Runs of the port-level machine and what is observed of them: the commands taken, the responses returned, and
the observation of a run (70_reset_and_hazards.md R107, R108); the schedule of a host that keeps its duties (R110). -/

namespace Sys2Proof.Machine

/-- The input ports at the next edge; none where the next move is a power loss (log 2). -/
def State.nextPorts (s : State) : Option PortIn :=
  match s.host with
  | [] => some lowPorts
  | .edge p :: _ => some p
  | .powerLoss :: _ => none

/-- The command the next step takes, if it takes one (70_reset_and_hazards.md R104). -/
def State.commandAt (s : State) : Option CmdWord :=
  match s.nextPorts with
  | some p => if s.known && s.takesCommand p then some (s.takenWord p) else none
  | none => none

/-- The response the host takes at the next step, if it takes one (70_reset_and_hazards.md R105). -/
def State.responseAt (s : State) : Option Response :=
  match s.nextPorts with
  | some p => if s.known && s.givesResponse p then s.heldResponse else none
  | none => none

/-- `k` steps, stopping at the first fault or refusal. -/
def runSteps : Nat → State → Host.Outcome State Fault Refusal
  | 0, s => .next s
  | k + 1, s =>
    match step s with
    | .next t => runSteps k t
    | .fault r => .fault r
    | .refused r => .refused r

/-- The commands taken in `k` steps, in order. -/
def commandsTaken : Nat → State → List CmdWord
  | 0, _ => []
  | k + 1, s =>
    s.commandAt.toList ++
      match step s with
      | .next t => commandsTaken k t
      | .fault _ => []
      | .refused _ => []

/-- The responses the host takes in `k` steps, in order. -/
def responsesTaken : Nat → State → List Response
  | 0, _ => []
  | k + 1, s =>
    s.responseAt.toList ++
      match step s with
      | .next t => responsesTaken k t
      | .fault _ => []
      | .refused _ => []

/-- The observation of a run: "its list of responses, in order, together with the final `crc`" (70_reset_and_hazards.md
R108). -/
structure Observation where
  responses : List Response
  crc : Word32
deriving DecidableEq, Repr

/-- What the host has seen of a run so far (70_reset_and_hazards.md R108, log 18). -/
structure HostView where
  /-- at the last edge the host offered a word that was not taken -/
  offering : Bool
  /-- commands taken whose response the host has not had -/
  awaiting : Nat
  /-- `crc` before the edge at which the host had the last response; before the first one, where the run began; none there
  where the engine has not been reset since power-up -/
  crc : Option Word32
deriving DecidableEq, Repr

/-- What the host has seen when a run begins. Of the state before the first reset R108 "says nothing". -/
def State.startView (s : State) : HostView where
  offering := !s.offered.isEmpty
  awaiting := if s.known && s.rspPending then 1 else 0
  crc := if s.known then some s.crc else none

/-- What the host has seen after the next step. Each command taken awaits its response, and only taking the response ends that;
one that a reset or a power loss discards is missing from then on (70_reset_and_hazards.md R100, R108). The `crc` shown with a
response is the register before the edge that takes it. Where that edge has `rst = 1` (log 10), R108 does not say whether the final
`crc` is that one or the 0xFFFFFFFF the edge leaves; that it is the one before the edge is the model's DESIGN CHOICE (log 18). -/
def State.viewAfter (s : State) (v : HostView) : HostView :=
  match s.nextPorts with
  | none => v
  | some p =>
    { offering := p.cmdValid && s.commandAt.isNone
      awaiting := v.awaiting + s.commandAt.toList.length - s.responseAt.toList.length
      crc := if s.responseAt.isSome then some s.crc else v.crc }

/-- What the host has seen after `k` steps, where it had seen `v` before them. -/
def hostView : Nat → HostView → State → HostView
  | 0, v, _ => v
  | k + 1, v, s =>
    match step s with
    | .next t => hostView k (s.viewAfter v) t
    | .fault _ => s.viewAfter v
    | .refused _ => s.viewAfter v

/-- A run that leaves the machine in `t` has ended: the host has no move left, offers nothing, and "has had the response to
its last command" and to each one before it (70_reset_and_hazards.md R108, log 18). -/
def HostView.ended (v : HostView) (t : State) : Bool := t.host.isEmpty && !v.offering && v.awaiting = 0

/-- The observation of the run of `k` steps from `s`: the responses the host took and `crc` before the edge at which it had
the last one. None where the run stops with a fault or a refusal, has not ended, or has no `crc` to show
(70_reset_and_hazards.md R108, log 18). -/
def observe (k : Nat) (s : State) : Option Observation :=
  match runSteps k s with
  | .next t =>
    if (hostView k s.startView s).ended t then
      (hostView k s.startView s).crc.map fun c => ⟨responsesTaken k s, c⟩
    else none
  | .fault _ => none
  | .refused _ => none

/-- The shortest schedule of a host that keeps its duties (70_reset_and_hazards.md R110): it offers each word at one edge and takes
its response at the next. Every such schedule: `keepsDuties` in Safety.lean. -/
def conformingHost (ws : List CmdWord) : List HostMove :=
  ws.flatMap fun w => [.edge (offerPorts w), .edge takePorts]

end Sys2Proof.Machine
end

