-- ==== Sys2Proof/Machine/System.lean ====
section
/-! DEFINITION. `N_ENGINES` engines, the OPEN parameter of 00_scope.md R7, which a model takes as an argument
(92_eei_decisions.md D12): independent instances, each with its own register, ports and response register, over the one
read-only table (60_exceptions.md R95). -/

namespace Sys2Proof.Machine

/-- A system of `n` engines (60_exceptions.md R95). -/
abbrev System (n : Nat) := Vector State n

/-- `N_ENGINES` is at least 1 (93_implementation_defined.md U7). -/
def enginesOk (n : Nat) : Bool := 1 ≤ n

/-- Every engine right after reset, each under its own number (log 15). -/
def System.reset (n : Nat) : System n := Vector.ofFn fun k => { State.reset with engine := k.val }

/-- The state after an engine's next step; an engine that has no step (it hangs, or is not reset since power-up) stays as it is.
The spec does not say what a system's run is where one engine stops: that the stopped engine stays while the others go on is the
model's DESIGN CHOICE (log 14), for instances that are "fully independent" (60_exceptions.md R95). -/
def stepOrStay (s : State) : State :=
  match step s with
  | .next t => t
  | .fault _ => s
  | .refused _ => s

/-- Engine `k` makes its next step; the others do not move (60_exceptions.md R95, log 14). -/
def System.stepEngine {n : Nat} (k : Fin n) (y : System n) : System n := y.set k (stepOrStay y[k])

/-- The engines step in the order of a schedule. That a stop of one engine is its own, so that the schedule goes on with the
others, is the DESIGN CHOICE of `stepOrStay` (log 14). -/
def System.runSchedule {n : Nat} : List (Fin n) → System n → System n
  | [], y => y
  | k :: ks, y => System.runSchedule ks (System.stepEngine k y)

/-- Every engine makes its next step, as at an edge of a clock they share (log 14). -/
def System.stepAll {n : Nat} (y : System n) : System n := y.map stepOrStay

end Sys2Proof.Machine
end

