-- ==== Sys2Proof/Safety.lean ====
section
/-! DEFINITION. What counts as a safe run: the duties of the host (70_reset_and_hazards.md R110, 60_exceptions.md R90), no ILLEGAL
response (60_exceptions.md R84), and the states the engine can be in. -/

namespace Sys2Proof.Machine

/-- A move that is an edge without reset: no power loss and no `rst` (70_reset_and_hazards.md R107, premise 2). -/
def HostMove.noReset : HostMove → Bool
  | .edge p => !p.rst
  | .powerLoss => false

/-- An edge at which the host neither resets nor takes a response (60_exceptions.md R91). -/
def HostMove.ignoresResponse : HostMove → Bool
  | .edge p => !p.rst && !p.rspReady
  | .powerLoss => false

/-- The engine is reset, holds no response, has its table, and no offer is in progress: the next word offered is taken
(60_exceptions.md R92). -/
def State.ready (s : State) : Bool :=
  s.known && !s.rspPending && s.fillLeft = 0 && s.offered.isEmpty

/-- The host issues the words `ws`, in order, in `k` edges, and keeps the duties of 70_reset_and_hazards.md R110: it never resets
(R107, premise 2); a word it offers is the next of `ws`, and once offered it is offered at every edge until an edge takes it
(R104); when its moves are over every word is taken and no response is still held (R105). It may wait before it offers a word and
before it takes a response, and may offer the next word while a response is held. -/
def keepsDuties : List CmdWord → Nat → State → Prop
  | ws, 0, s => ws = [] ∧ s.host = [] ∧ s.rspPending = false
  | ws, k + 1, s =>
    ∃ p rest, s.host = .edge p :: rest ∧ p.rst = false ∧
      (p.cmdValid = true → ws.head? = some p.cmd) ∧
      (s.offered ≠ [] → p.cmdValid = true) ∧
      ∀ t, step s = .next t → keepsDuties (if s.takesCommand p then ws.tail else ws) k t

/-- "no `ILLEGAL` response" (60_exceptions.md R84). -/
def noIllegal (rs : List Response) : Bool := rs.all fun r => r.kind ≠ .illegal

/-- Two states agree in all that the spec gives a value: `crc`, the response held if one is held, whether the engine is reset,
and the table's fill. The kind and data of a response register that holds nothing are left out
(93_implementation_defined.md U4). -/
def State.agrees (s t : State) : Prop :=
  s.crc = t.crc ∧ s.rspPending = t.rspPending ∧
  (s.rspPending = true → s.rspKind = t.rspKind ∧ s.rspData = t.rspData) ∧
  s.known = t.known ∧ s.fillLeft = t.fillLeft

/-- The held response is one the engine produces (30_encoding.md R56): ACK with zero, DATA with the complement of the register
as it stands, or ILLEGAL with a word that spells no command. -/
def State.heldSound (s : State) : Prop :=
  (s.rspKind = 0b00 ∧ s.rspData = 0x00000000) ∨
  (s.rspKind = 0b01 ∧ s.rspData = s.crc ^^^ 0xFFFFFFFF) ∨
  (s.rspKind = 0b10 ∧ ∃ w : CmdWord, decode w = .illegal w ∧ s.rspData = zextWord w)

/-- The states of a reset engine: a response is held only when the table is available and is one the engine produces, and a
fill never takes longer than the implementation's fill time. Before the first reset after power-up nothing is claimed. -/
def State.Inv (s : State) : Prop :=
  s.known = true →
    (s.rspPending = true → s.fillLeft = 0 ∧ s.heldSound) ∧ s.fillLeft ≤ s.fillTime

end Sys2Proof.Machine
end

