-- ==== Sys2Proof/Certificates/Slice0/Obligations.lean ====
section
/-! DEFINITION. The statements for the provers. Each formalises rules of spec/, named in its docstring; where a clause rests on
a choice of the model, the docstring names the log entry (notes/assumptions/<n>.md). The engine has no data memory, so a
frame speaks of every field of State; the table is a constant. -/

open Sys2Proof Sys2Proof.Machine

/-! ## Encoding -/

/-- Words written out from the opcode map of 30_encoding.md R52 and the boundary rows of V-ILLEGAL decode as they stand there. -/
def Obligations.SpecWordsDecodeToTheirCommands : Prop :=
  decode 0b0000000000000000 = .instr .nop ∧
  decode 0b0000000100000000 = .instr .crcInit ∧
  decode 0b0000001000110001 = .instr (.crcByte 0x31) ∧
  decode 0b0000001100000000 = .instr .crcRead ∧
  decode 0x0001 = .illegal 0x0001 ∧ decode 0x0101 = .illegal 0x0101 ∧ decode 0x0301 = .illegal 0x0301 ∧
  decode 0x0400 = .illegal 0x0400 ∧ decode 0xFFFF = .illegal 0xFFFF

/-- Decoding and encoding agree in both directions, and an illegal word is the word of no command
(30_encoding.md section 3, the decode function). -/
def Obligations.DecodeAndEncodeAgree : Prop :=
  (∀ i : Instr, i.wf = true → decode (encode i) = .instr i) ∧
  (∀ (w : CmdWord) (i : Instr), decode w = .instr i → encode i = w) ∧
  (∀ w v : CmdWord, decode w = .illegal v → v = w ∧ ∀ i : Instr, encode i ≠ w)

/-- The opcode map (30_encoding.md R52): a word selects a row when `(w & mask) == match`, at most one row matches, and the
decoder gives the row's command; a word that matches no row is illegal. -/
def Obligations.DecoderFollowsTheOpcodeMap : Prop :=
  ∀ w : CmdWord,
    (decode w = .instr .nop ↔ w &&& 0xFFFF = 0x0000) ∧
    (decode w = .instr .crcInit ↔ w &&& 0xFFFF = 0x0100) ∧
    (decode w = .instr (.crcByte (w.extractLsb' 0 8)) ↔ w &&& 0xFF00 = 0x0200) ∧
    (∀ b : Byte, decode w = .instr (.crcByte b) → b = w.extractLsb' 0 8) ∧
    (decode w = .instr .crcRead ↔ w &&& 0xFFFF = 0x0300) ∧
    (opcodeMap.countP (fun r => r.selects w) ≤ 1) ∧
    (decode w = .illegal w ↔ opcodeMap.countP (fun r => r.selects w) = 0)

/-- The reserved opcodes (30_encoding.md R53): every word with opcode 0x04 to 0xFF, 64,512 words in all, is illegal; the
engine answers ILLEGAL with the word and changes nothing else. -/
def Obligations.ReservedOpcodesAreIllegal : Prop :=
  (∀ w : CmdWord, 0x04 ≤ (w.extractLsb' 8 8).toNat →
    decode w = .illegal w ∧
    ∀ s : State, performWord w s =
      .next { s with rspPending := true, rspKind := 0b10, rspData := w.setWidth 32 }) ∧
  (List.range 65536).countP (fun n => 0x04 ≤ ((BitVec.ofNat 16 n : CmdWord).extractLsb' 8 8).toNat) = 64512

/-- Nonzero data under NOP, INIT or READ, and the count of the legal words (30_encoding.md R54). -/
def Obligations.LegalWordsAreExactly259 : Prop :=
  (∀ w : CmdWord,
    (w.extractLsb' 8 8 = 0x00 ∨ w.extractLsb' 8 8 = 0x01 ∨ w.extractLsb' 8 8 = 0x03) → w.extractLsb' 0 8 ≠ 0x00 →
    decode w = .illegal w ∧
    ∀ s : State, performWord w s =
      .next { s with rspPending := true, rspKind := 0b10, rspData := w.setWidth 32 }) ∧
  (∀ w : CmdWord, isLegal w = true ↔
    w = 0x0000 ∨ w = 0x0100 ∨ w = 0x0300 ∨ (0x0200 ≤ w.toNat ∧ w.toNat ≤ 0x02FF)) ∧
  (List.range 65536).countP (fun n =>
    ((BitVec.ofNat 16 n : CmdWord).extractLsb' 8 8 = 0x00 ∨ (BitVec.ofNat 16 n : CmdWord).extractLsb' 8 8 = 0x01 ∨
      (BitVec.ofNat 16 n : CmdWord).extractLsb' 8 8 = 0x03) ∧
    (BitVec.ofNat 16 n : CmdWord).extractLsb' 0 8 ≠ 0x00) = 765 ∧
  (List.range 65536).countP (fun n => isLegal (BitVec.ofNat 16 n)) = 259

/-! ## The table -/

/-- The table read gives the 256 entries the spec lists (10_state.md R21). -/
def Obligations.TableReadsGiveTheListing : Prop :=
  tableListing.length = 256 ∧ ∀ i : Byte, tableListing[i.toNat]? = some (memReadT i)

/-- The properties of the table (10_state.md R22): three entries, linearity, and a top byte that is not constant. -/
def Obligations.TableIsLinear : Prop :=
  memReadT 0x00 = 0x00000000 ∧ memReadT 0x80 = 0xEDB88320 ∧ memReadT 0xFF = 0x2D02EF8D ∧
  (∀ i j : Byte, memReadT (i ^^^ j) = memReadT i ^^^ memReadT j) ∧
  (∃ i j : Byte, (memReadT i).extractLsb' 24 8 ≠ (memReadT j).extractLsb' 24 8)

/-- The table update equals eight serial, bit-at-a-time steps (41_crc32_function.md R76). -/
def Obligations.TableUpdateEqualsEightSerialSteps : Prop :=
  ∀ (r : Word32) (b : Byte), updateCrc r b = serialUpdate r b

/-! ## The commands -/

/-- NOP (40_crc_commands.md R68), with its completion and its frame: the ACK response and nothing else. Between two commands
it changes no result; an idle port is not a NOP and gets no response. -/
def Obligations.NopAcknowledgesAndChangesNothing : Prop :=
  encode .nop = 0x0000 ∧
  (∀ w : CmdWord, decode w = .instr .nop ↔ w = 0x0000) ∧
  (∀ w : CmdWord, 0x0001 ≤ w.toNat → w.toNat ≤ 0x00FF → decode w = .illegal w) ∧
  (∀ s : State, exec .nop s = .next { s with rspPending := true, rspKind := 0b00, rspData := 0x00000000 }) ∧
  (∀ (c : Word32) (a b : List CmdWord),
    (txRun c (a ++ 0x0000 :: b)).1 = (txRun c (a ++ b)).1 ∧
    (txRun c (a ++ 0x0000 :: b)).2.eraseIdx a.length = (txRun c (a ++ b)).2 ∧
    (txRun c (a ++ 0x0000 :: b)).2[a.length]? = some ⟨.ack, 0x00000000⟩) ∧
  (∀ (s : State) (p : PortIn), s.known = true → s.rspPending = false → p.rst = false → p.cmdValid = false →
    s.takesCommand p = false ∧
    ∃ t, clockEdge p s = .next t ∧ t.crc = s.crc ∧ t.rspPending = false) ∧
  txStep 0x7C231048 0x0000 = (0x7C231048, ⟨.ack, 0x00000000⟩)

/-- INIT (40_crc_commands.md R65), with its completion and its frame: `crc` becomes 0xFFFFFFFF, whatever it was, and the
response is ACK. -/
def Obligations.InitStartsAMessage : Prop :=
  encode .crcInit = 0x0100 ∧
  (∀ w : CmdWord, decode w = .instr .crcInit ↔ w = 0x0100) ∧
  (∀ w : CmdWord, w.extractLsb' 8 8 = 0x01 → w.extractLsb' 0 8 ≠ 0x00 → decode w = .illegal w) ∧
  (∀ s : State, exec .crcInit s =
    .next { s with crc := 0xFFFFFFFF, rspPending := true, rspKind := 0b00, rspData := 0x00000000 }) ∧
  (∀ c : Word32, (txRun c [0x0100, 0x0100]).1 = (txRun c [0x0100]).1) ∧
  (∀ (s : State) (p : PortIn), p.rst = true →
    ∃ t u, clockEdge p s = .next t ∧ exec .crcInit t = .next u ∧ u.crc = t.crc) ∧
  txRun 0x12345678 [0x0100, 0x0300] = (0xFFFFFFFF, [⟨.ack, 0x00000000⟩, ⟨.data, 0x00000000⟩])

/-- BYTE (40_crc_commands.md R66), with its completion and its frame, its corner cases and its example. -/
def Obligations.ByteAbsorbsOneMessageByte : Prop :=
  (∀ b : Byte, encode (.crcByte b) = 0x0200 ||| b.setWidth 16) ∧
  (∀ (w : CmdWord) (b : Byte), decode w = .instr (.crcByte b) ↔ w = 0x0200 ||| b.setWidth 16) ∧
  (∀ (b : Byte) (s : State), exec (.crcByte b) s =
    .next { s with
      crc := memReadT (((s.crc ^^^ b.setWidth 32) &&& 0xFF).setWidth 8) ^^^ (s.crc >>> 8)
      rspPending := true, rspKind := 0b00, rspData := 0x00000000 }) ∧
  (∀ (c : Word32) (b : Byte), tableIndex c b = c.extractLsb' 0 8 ^^^ b) ∧
  (∀ c : Word32, updateCrc c (c.extractLsb' 0 8) = c >>> 8) ∧
  (∀ b : Byte, updateCrc 0x00000000 b = memReadT b) ∧
  updateCrc 0x00000000 0x00 = 0x00000000 ∧
  updateCrc 0x80000000 0x00 = 0x00800000 ∧
  (∀ (c : Word32) (b : Byte),
    (updateCrc c b).extractLsb' 24 8 = (memReadT (tableIndex c b)).extractLsb' 24 8) ∧
  (∀ c : Word32, (c >>> 8).extractLsb' 24 8 = 0x00) ∧
  tableIndex 0xFFFFFFFF 0x31 = 0xCE ∧ (0xFFFFFFFF : Word32) >>> 8 = 0x00FFFFFF ∧ memReadT 0xCE = 0x7CDCEFB7 ∧ updateCrc 0xFFFFFFFF 0x31 = 0x7C231048

/-- READ (40_crc_commands.md R67), with its completion and its frame: the response is DATA with the complement of `crc`, and
`crc` is kept, so a READ in mid-message returns the checksum of the bytes so far and the message goes on. -/
def Obligations.ReadReturnsTheComplementAndKeepsTheRegister : Prop :=
  encode .crcRead = 0x0300 ∧
  (∀ w : CmdWord, decode w = .instr .crcRead ↔ w = 0x0300) ∧
  (∀ w : CmdWord, w.extractLsb' 8 8 = 0x03 → w.extractLsb' 0 8 ≠ 0x00 → decode w = .illegal w) ∧
  (∀ s : State, exec .crcRead s =
    .next { s with rspPending := true, rspKind := 0b01, rspData := s.crc ^^^ 0xFFFFFFFF }) ∧
  (∀ c : Word32, txRun c [0x0300, 0x0300] =
    (c, [⟨.data, c ^^^ 0xFFFFFFFF⟩, ⟨.data, c ^^^ 0xFFFFFFFF⟩])) ∧
  (∀ (c : Word32) (a b : List Byte),
    txRun c (0x0100 :: (a.map (fun x => encode (.crcByte x)) ++ 0x0300 :: b.map (fun x => encode (.crcByte x)))) =
      (rawCrc 0xFFFFFFFF (a ++ b),
        List.replicate (a.length + 1) ⟨.ack, 0x00000000⟩ ++ ⟨.data, crc32 a⟩ ::
          List.replicate b.length ⟨.ack, 0x00000000⟩)) ∧
  (∀ c : Word32, (txRun c [0x0100, 0x0300]).2[1]? = some ⟨.data, 0x00000000⟩) ∧
  (∀ (s : State) (p : PortIn), p.rst = true →
    ∃ t u, clockEdge p s = .next t ∧ exec .crcRead t = .next u ∧ u.heldResponse = some ⟨.data, 0x00000000⟩) ∧
  txStep 0x00000000 0x0300 = (0x00000000, ⟨.data, 0xFFFFFFFF⟩) ∧
  txStep 0x340BC6D9 0x0300 = (0x340BC6D9, ⟨.data, 0xCBF43926⟩)

/-- IllegalCommand, the engine's one exception (60_exceptions.md R83): which words raise it, that there are 65,277 of them,
the response with the whole word, and that nothing else changes; no legal command raises it. -/
def Obligations.IllegalWordsAreAnsweredAndChangeNothing : Prop :=
  (∀ w : CmdWord, decode w = .illegal w ↔
    0x04 ≤ (w.extractLsb' 8 8).toNat ∨
    ((w.extractLsb' 8 8 = 0x00 ∨ w.extractLsb' 8 8 = 0x01 ∨ w.extractLsb' 8 8 = 0x03) ∧ w.extractLsb' 0 8 ≠ 0x00)) ∧
  (∀ (w : CmdWord) (s : State), decode w = .illegal w →
    performWord w s = .next { s with rspPending := true, rspKind := 0b10, rspData := w.setWidth 32 }) ∧
  (List.range 65536).countP (fun n => decode (BitVec.ofNat 16 n) = .illegal (BitVec.ofNat 16 n)) = 65277 ∧
  (∀ (i : Instr) (s t : State), exec i s = .next t → t.rspKind ≠ 0b10)

/-- Any number of illegal words in a row each get their own ILLEGAL response, and none changes `crc`
(60_exceptions.md section 2). -/
def Obligations.IllegalWordsInARowEachGetTheirResponse : Prop :=
  ∀ (c : Word32) (ws : List CmdWord), (∀ w ∈ ws, isLegal w = false) →
    txRun c ws = (c, ws.map fun w => ⟨.illegal, w.setWidth 32⟩)

/-- The machine performs a word as the transaction level's `Step` says (40_crc_commands.md R64): the register and the response
are `Step`'s, every other field is unchanged. -/
def Obligations.PerformedWordIsTheTransactionStep : Prop :=
  (∀ (w : CmdWord) (s : State),
    performWord w s = .next { s with
      crc := (txStep s.crc w).1
      rspPending := true
      rspKind := (txStep s.crc w).2.kind.code
      rspData := (txStep s.crc w).2.data }) ∧
  (∀ (c : Word32) (w : CmdWord), txStep c w =
    match decode w with
    | .instr .nop => (c, ⟨.ack, 0x00000000⟩)
    | .instr .crcInit => (0xFFFFFFFF, ⟨.ack, 0x00000000⟩)
    | .instr (.crcByte b) =>
      (memReadT (((c ^^^ b.setWidth 32) &&& 0xFF).setWidth 8) ^^^ (c >>> 8), ⟨.ack, 0x00000000⟩)
    | .instr .crcRead => (c, ⟨.data, c ^^^ 0xFFFFFFFF⟩)
    | .illegal v => (c, ⟨.illegal, v.setWidth 32⟩))

/-- The properties common to all commands (40_crc_commands.md R70). The engine has no flag, so none is written. -/
def Obligations.CommandsWriteOnlyRegisterAndResponse : Prop :=
  (∀ (w : CmdWord) (s : State), ∃ t, performWord w s = .next t ∧
    t.known = s.known ∧ t.fillLeft = s.fillLeft ∧ t.fillTime = s.fillTime ∧ t.offered = s.offered ∧
    t.host = s.host ∧ t.engine = s.engine ∧ t.tick = s.tick ∧
    (decode w = .instr .nop ∨ decode w = .instr .crcRead ∨ decode w = .illegal w → t.crc = s.crc)) ∧
  (∀ (s s' t t' : State), exec .crcInit s = .next t → exec .crcInit s' = .next t' → t.crc = t'.crc) ∧
  (∀ (b : Byte) (s s' t t' : State), s.crc = s'.crc → exec (.crcByte b) s = .next t →
    exec (.crcByte b) s' = .next t' → t.crc = t'.crc) ∧
  (∀ (w : CmdWord) (s t : State), performWord w s = .next t → t.rspKind = 0b10 → decode w = .illegal w)

/-- A sequence of commands is one after the other (40_crc_commands.md section 6): `Run` of a sequence in two parts. -/
def Obligations.RunOfTwoPartsIsOneAfterTheOther : Prop :=
  ∀ (c : Word32) (a b : List CmdWord),
    txRun c (a ++ b) = ((txRun (txRun c a).1 b).1, (txRun c a).2 ++ (txRun (txRun c a).1 b).2)

/-- Every legal sequence succeeds (41_crc32_function.md section 2): one response per command, none of them ILLEGAL. -/
def Obligations.LegalCommandsNeverFail : Prop :=
  ∀ (c : Word32) (ws : List CmdWord), (∀ w ∈ ws, isLegal w = true) →
    (txRun c ws).2.length = ws.length ∧ noIllegal (txRun c ws).2 = true

/-- No hazard (70_reset_and_hazards.md section 3): the command after a command sees its effect. -/
def Obligations.EachCommandSeesTheOneBefore : Prop :=
  (∀ (c : Word32) (b : Byte), txRun c [encode (.crcByte b), encode .crcRead] =
    (updateCrc c b, [⟨.ack, 0x00000000⟩, ⟨.data, updateCrc c b ^^^ 0xFFFFFFFF⟩])) ∧
  (∀ (c : Word32) (a b : Byte), (txRun c [encode (.crcByte a), encode (.crcByte b)]).1 =
    updateCrc (updateCrc c a) b) ∧
  (∀ (c : Word32) (b : Byte), (txRun c [encode .crcInit, encode (.crcByte b)]).1 = updateCrc 0xFFFFFFFF b)

/-! ## The crc32 function -/

/-- The check value (41_crc32_function.md R80). -/
def Obligations.CheckValueOfNineDigits : Prop :=
  crc32 [0x31, 0x32, 0x33, 0x34, 0x35, 0x36, 0x37, 0x38, 0x39] = 0xCBF43926

/-- The empty message (41_crc32_function.md R73). -/
def Obligations.EmptyMessageHasChecksumZero : Prop :=
  crc32 [] = 0x00000000 ∧
  ∀ c : Word32, txRun c [0x0100, 0x0300] = (0xFFFFFFFF, [⟨.ack, 0x00000000⟩, ⟨.data, 0x00000000⟩])

/-- The whole-buffer function on the engine (41_crc32_function.md R72). -/
def Obligations.CommandSequenceComputesCrc32 : Prop :=
  ∀ (c : Word32) (d : List Byte),
    crc32Words d = 0x0100 :: (d.map (fun b => 0x0200 ||| b.setWidth 16) ++ [0x0300]) ∧
    (crc32Words d).length = d.length + 2 ∧
    txRun c (crc32Words d) =
      (rawCrc 0xFFFFFFFF d, List.replicate (d.length + 1) ⟨.ack, 0x00000000⟩ ++ [⟨.data, crc32 d⟩])

/-- What READ returns depends only on the BYTE operands since the last INIT or reset, in order; NOPs, illegal words, READs and
earlier messages do not affect it (41_crc32_function.md R75). It is the exact behaviour of clients that interleave, too. -/
def Obligations.ReadDependsOnlyOnTheMessage : Prop :=
  (∀ (msg : List Byte) (ws : List CmdWord),
    txRun (rawCrc 0xFFFFFFFF msg) (ws ++ [0x0300]) =
      (rawCrc 0xFFFFFFFF (messageIn msg ws),
        (txRun (rawCrc 0xFFFFFFFF msg) ws).2 ++ [⟨.data, crc32 (messageIn msg ws)⟩])) ∧
  (∀ (c : Word32) (before ws : List CmdWord),
    (txRun c (before ++ 0x0100 :: ws)).1 = rawCrc 0xFFFFFFFF (messageIn [] ws)) ∧
  (∀ (msg : List Byte) (ws : List CmdWord), messageIn msg ws =
    messageIn msg (ws.filter fun w => decode w = .instr .crcInit ∨ opField w = 0x02))

/-- The checksum of a one-byte message reads out one table entry (41_crc32_function.md R77). -/
def Obligations.OneByteMessageReadsOutTheTable : Prop :=
  (∀ b : Byte, crc32 [b] = memReadT (b ^^^ 0xFF) ^^^ 0xFF000000) ∧
  (∀ i : Byte, memReadT i = crc32 [i ^^^ 0xFF] ^^^ 0xFF000000) ∧
  crc32 [0x00] = 0xD202EF8D ∧ crc32 [0xFF] = 0xFF000000

/-- The affine law (41_crc32_function.md R78). -/
def Obligations.ChecksumIsAffine : Prop :=
  (∀ a b : List Byte, a.length = b.length →
    crc32 (xorBytes a b) = crc32 a ^^^ crc32 b ^^^ crc32 (List.replicate a.length 0x00)) ∧
  crc32 (List.replicate 4 0x00) = 0x2144DF1C

/-- The residue law (41_crc32_function.md R79). -/
def Obligations.MessageWithItsChecksumHasTheResidue : Prop :=
  ∀ m : List Byte,
    crc32 (m ++ le32 (crc32 m)) = 0x2144DF1C ∧
    rawCrc 0xFFFFFFFF (m ++ le32 (crc32 m)) = 0xDEBB20E3

/-- Streaming (41_crc32_function.md section 5): a message fed in two parts, with a READ between them. -/
def Obligations.StreamingContinuesAMessage : Prop :=
  (∀ (r : Word32) (a b : List Byte), rawCrc r (a ++ b) = rawCrc (rawCrc r a) b) ∧
  (∀ (c : Word32) (a b : List Byte),
    (txRun c (0x0100 :: (a.map (fun x => encode (.crcByte x)) ++ b.map (fun x => encode (.crcByte x)) ++ [0x0300]))).2.getLast? =
      some ⟨.data, crc32 (a ++ b)⟩) ∧
  (∀ (c : Word32) (a b : List Byte),
    (txRun c (0x0100 :: (a.map (fun x => encode (.crcByte x)) ++ 0x0300 ::
      (b.map (fun x => encode (.crcByte x)) ++ [0x0300])))).2.getLast? = some ⟨.data, crc32 (a ++ b)⟩)

/-- One table read per BYTE and none for any other command (20_memory.md section 1, 41_crc32_function.md section 5): the reads a
word makes are the ones listed, since its new register and its response are computed from them and the old register. The last
clause is the list of indices that P1 of 95_test_vectors.md walks through. -/
def Obligations.OneTableReadPerByte : Prop :=
  (∀ (c : Word32) (w : CmdWord), commandRead c (decode w) =
    if opField w = 0x02 then [c.extractLsb' 0 8 ^^^ w.extractLsb' 0 8] else []) ∧
  (∀ (w : CmdWord) (s : State), ∃ t, performWord w s = .next t ∧
    (∀ i : Byte, commandRead s.crc (decode w) = [i] →
      t.crc = memReadT i ^^^ (s.crc >>> 8) ∧ t.heldResponse = some ⟨.ack, 0x00000000⟩) ∧
    (commandRead s.crc (decode w) = [] →
      t.crc = (if w = 0x0100 then 0xFFFFFFFF else s.crc) ∧
      t.heldResponse = some (if w = 0x0000 ∨ w = 0x0100 then ⟨.ack, 0x00000000⟩
        else if w = 0x0300 then ⟨.data, s.crc ^^^ 0xFFFFFFFF⟩ else ⟨.illegal, w.setWidth 32⟩))) ∧
  (∀ (c : Word32) (a b : List CmdWord), txReads c (a ++ b) = txReads c a ++ txReads (txRun c a).1 b) ∧
  (∀ (c : Word32) (w : CmdWord), txReads c [w] = commandRead c (decode w)) ∧
  (∀ (c : Word32) (ws : List CmdWord), (txReads c ws).length = ws.countP (fun w => opField w = 0x02)) ∧
  (∀ (c : Word32) (d : List Byte), (txReads c (crc32Words d)).length = d.length) ∧
  txReads 0xFFFFFFFF (crc32Words [0x31, 0x32, 0x33, 0x34, 0x35, 0x36, 0x37, 0x38, 0x39]) =
    [0xCE, 0x7A, 0x01, 0x19, 0x69, 0xD5, 0xA9, 0x58, 0x69]

/-! ## Reset and the ports -/

/-- The reset state (10_state.md R29): the values the spec gives. The table, a constant, holds the entries of rule R19. -/
def Obligations.ResetStateHoldsTheStatedValues : Prop :=
  State.reset.crc = 0xFFFFFFFF ∧ State.reset.rspPending = false ∧ ∀ i : Byte, memReadT i = tableEntry i

/-- A step runs the decoded command: at an edge that takes a command, `step` is `exec` of the command that the word taken
decodes to, at the state with the host's move done and its offer over; an illegal word raises the one exception there. -/
def Obligations.StepRunsTheDecodedCommand : Prop :=
  ∀ (s : State) (p : PortIn) (rest : List HostMove),
    s.host = .edge p :: rest → s.known = true → s.takesCommand p = true →
    (∀ i : Instr, i.wf = true → decode (s.takenWord p) = .instr i →
      step s = exec i { s with host := rest, offered := [], tick := s.tick + 1 }) ∧
    (∀ w : CmdWord, decode (s.takenWord p) = .illegal w →
      step s = raiseIllegal w { s with host := rest, offered := [], tick := s.tick + 1 })

/-- The word `withFetchWord` places is the one the next step performs (log 2, log 16). -/
def Obligations.PlacedWordIsPerformedNext : Prop :=
  ∀ (s : State) (w : CmdWord),
    step (s.withFetchWord 16 w.toNat) =
      performWord w { s with
        rspPending := false, known := true, fillLeft := 0, offered := [], host := s.host.drop 1, tick := s.tick + 1 }

/-- Reset (70_reset_and_hazards.md R100): what an edge with `rst = 1` leaves, that more such edges leave the same, and that
nothing else clears a response that the host does not take. -/
def Obligations.ResetEdgeLeavesTheResetState : Prop :=
  (∀ (s : State) (p : PortIn), p.rst = true →
    s.takesCommand p = false ∧
    ∃ t, clockEdge p s = .next t ∧ t.crc = 0xFFFFFFFF ∧ t.rspPending = false ∧ t.known = true ∧
      t.host = s.host ∧ t.fillTime = s.fillTime ∧ t.engine = s.engine) ∧
  (∀ (s : State) (p q : PortIn), p.rst = true → q.rst = true →
    ∃ t u, clockEdge p s = .next t ∧ clockEdge q t = .next u ∧ t.agrees u) ∧
  (∀ (s t : State) (p : PortIn), s.known = true → s.rspPending = true → p.rst = false → p.rspReady = false →
    clockEdge p s = .next t → t.rspPending = true ∧ t.rspKind = s.rspKind ∧ t.rspData = s.rspData)

/-- Reset takes precedence over a command (70_reset_and_hazards.md R101): with `rst = 1` no command is taken even if one is
offered, and no response is produced. A command the host was offering, at this edge or before it, stays untaken: after the reset
an edge that offers nothing takes none, and one that offers a word takes that word, whatever was offered before. -/
def Obligations.ResetTakesPrecedenceOverACommand : Prop :=
  ∀ (s : State) (p : PortIn) (rest : List HostMove), s.host = .edge p :: rest → p.rst = true →
    s.commandAt = none ∧ ∃ t, step s = .next t ∧ t.crc = 0xFFFFFFFF ∧ t.rspPending = false ∧ t.host = rest ∧
      t.offered = [] ∧ (∀ q : PortIn, q.cmdValid = false → t.takesCommand q = false) ∧
      ∀ q : PortIn, t.takenWord q = q.cmd

/-- The command handshake (70_reset_and_hazards.md R104): when `cmd_ready` is 1, when a command is taken, that the word taken is
the value at that edge where the host held it, and that an edge that takes none issues nothing. -/
def Obligations.CommandHandshake : Prop :=
  (∀ (s : State) (p : PortIn),
    s.cmdReady p = true ↔ s.rspPending = false ∧ s.tableAvailable = true ∧ p.rst = false) ∧
  (∀ (s : State) (p : PortIn),
    s.takesCommand p = true ↔ p.rst = false ∧ p.cmdValid = true ∧ s.cmdReady p = true) ∧
  (∀ (s : State) (p : PortIn), s.known = true → s.takesCommand p = true → (∀ w ∈ s.offered, w = p.cmd) →
    clockEdge p s = performWord p.cmd { s with offered := [], tick := s.tick + 1 }) ∧
  (∀ (s t : State) (p : PortIn), s.known = true → p.rst = false → s.takesCommand p = false → clockEdge p s = .next t →
    t.crc = s.crc ∧ (t.rspPending = true → s.rspPending = true ∧ t.rspKind = s.rspKind ∧ t.rspData = s.rspData))

/-- Where the host changes the word under its offer, the word taken is one of those it offered, whichever it is; an edge without
reset that takes no command adds its word to the offer, or ends the offer where `cmd_valid = 0`; the edge that takes a command
ends it, and so does a reset: the model's form of 93_implementation_defined.md U3 (log 6). -/
def Obligations.TakenWordIsAnOfferedWord : Prop :=
  (∀ (s : State) (p : PortIn), s.takenWord p ∈ s.offered ++ [p.cmd]) ∧
  (∀ (s t : State) (p : PortIn), p.rst = false → s.takesCommand p = false → clockEdge p s = .next t →
    t.offered = if p.cmdValid = true then s.offered ++ [p.cmd] else []) ∧
  (∀ (s t : State) (p : PortIn), s.takesCommand p = true → clockEdge p s = .next t → t.offered = []) ∧
  (∀ (s t : State) (p : PortIn), p.rst = true → clockEdge p s = .next t → t.offered = [])

/-- The response handshake (70_reset_and_hazards.md R105). -/
def Obligations.ResponseHandshake : Prop :=
  (∀ (s : State) (p : PortIn), s.known = true → s.takesCommand p = true →
    ∃ t, clockEdge p s = .next t ∧ t.rspPending = true ∧
      (t.crc, t.heldResponse) = ((txStep s.crc (s.takenWord p)).1, some (txStep s.crc (s.takenWord p)).2)) ∧
  (∀ (s : State) (p : PortIn), (s.outputs p).rspValid = s.rspPending ∧
    (s.rspPending = true → (s.outputs p).rspKind = s.rspKind ∧ (s.outputs p).rspData = s.rspData ∧
      (s.outputs p).cmdReady = false ∧ s.takesCommand p = false)) ∧
  (∀ (s : State) (p : PortIn) (r : Response),
    s.known = true → p.rst = false → p.rspReady = true → s.heldResponse = some r →
    ∃ t, clockEdge p s = .next t ∧ t.rspPending = false ∧ t.crc = s.crc ∧ t.known = true ∧ t.fillLeft = s.fillLeft ∧
      t.host = s.host) ∧
  (∀ (s : State) (p : PortIn), s.known = true → p.rst = false → p.rspReady = false → s.rspPending = true →
    ∃ t, clockEdge p s = .next t ∧ t.rspPending = true ∧ t.rspKind = s.rspKind ∧ t.rspData = s.rspData ∧ t.crc = s.crc)

/-- A ready engine takes the next offered command at the next edge that offers one (60_exceptions.md R92). -/
def Obligations.ReadyEngineTakesTheNextOffer : Prop :=
  ∀ (s : State) (p : PortIn) (rest : List HostMove), s.host = .edge p :: rest →
    s.known = true → s.rspPending = false → s.fillLeft = 0 → p.rst = false → p.cmdValid = true →
    s.commandAt = some (s.takenWord p) ∧ ∃ t, step s = .next t ∧ t.rspPending = true ∧ t.offered = []

/-- The hang (60_exceptions.md R91): while the host neither takes the held response nor resets, the engine takes no command and
keeps its register and the response; with no move of the host left it has no step; a reset is the way out. -/
def Obligations.UntakenResponseHangsTheEngine : Prop :=
  (∀ (s : State) (k : Nat), s.known = true → s.rspPending = true → k ≤ s.host.length →
    (∀ m ∈ s.host.take k, m.ignoresResponse = true) →
    commandsTaken k s = [] ∧ ∃ t, runSteps k s = .next t ∧ t.crc = s.crc ∧ t.known = true ∧ t.rspPending = true ∧
      t.rspKind = s.rspKind ∧ t.rspData = s.rspData ∧ t.host = s.host.drop k) ∧
  (∀ s : State, s.known = true → s.rspPending = true → (∀ m ∈ s.host, m.ignoresResponse = true) →
    runSteps (s.host.length + 1) s = .fault .hang) ∧
  (∀ (s : State) (p : PortIn), p.rst = true → ∃ t, clockEdge p s = .next t ∧ t.rspPending = false)

/-- The table's fill (70_reset_and_hazards.md R103, 93_implementation_defined.md U1): while it lasts no command is taken and
`crc` is kept, it ends after `fillLeft` edges, and a later reset does not restart it. That a reset in mid-fill keeps the
count is the model's choice (log 5). -/
def Obligations.FillKeepsCommandsWaiting : Prop :=
  (∀ (s : State) (k : Nat), s.known = true → s.rspPending = false → k ≤ s.fillLeft →
    (∀ m ∈ s.host.take k, m.noReset = true) →
    commandsTaken k s = [] ∧ ∃ t, runSteps k s = .next t ∧ t.fillLeft = s.fillLeft - k ∧ t.crc = s.crc ∧
      t.known = true ∧ t.rspPending = false ∧ t.host = s.host.drop k) ∧
  (∀ (s : State) (p : PortIn), p.rst = true → s.known = true → s.fillLeft = 0 →
    ∃ t, clockEdge p s = .next t ∧ t.tableAvailable = true) ∧
  (∀ (s : State) (p : PortIn), p.rst = true → s.known = true →
    ∃ t, clockEdge p s = .next t ∧ t.fillLeft = s.fillLeft)

/-- Before the first reset after power-up an edge without reset is refused, and a reset makes the engine known
(60_exceptions.md section 6, 93_implementation_defined.md U2; the form is the model's, log 7). -/
def Obligations.PowerLossIsUnknownUntilReset : Prop :=
  (∀ (s : State) (rest : List HostMove), s.host = .powerLoss :: rest →
    s.commandAt = none ∧ ∃ t, step s = .next t ∧ t.known = false ∧ t.host = rest) ∧
  (∀ (s : State) (p : PortIn), s.known = false → p.rst = false → clockEdge p s = .refused .beforeFirstReset) ∧
  (∀ (s : State) (p : PortIn), s.known = false → p.rst = true →
    ∃ t, clockEdge p s = .next t ∧ t.known = true ∧ t.crc = 0xFFFFFFFF ∧ t.rspPending = false ∧
      t.fillLeft = s.fillTime)

/-- The reserved kind (30_encoding.md section 4): no command produces `0b11`, and it is read as no kind. That the edge with `rst = 0`
at which the host takes it faults is the model's form of "treat the value as a fault of the engine" (DESIGN CHOICE, log 9). -/
def Obligations.ReservedKindIsNeverProduced : Prop :=
  (∀ (w : CmdWord) (s t : State), performWord w s = .next t → t.rspKind ≠ 0b11) ∧
  (∀ (s : State) (p : PortIn), s.known = true → s.rspPending = true → p.rst = false → p.rspReady = true →
    (clockEdge p s = .fault .reservedResponse ↔ s.rspKind = 0b11)) ∧
  (∀ d : Word32, Response.ofPorts 0b11 d = none)

/-! ## The whole machine -/

/-- The states of a reset engine hold at reset. -/
def Obligations.InvariantHoldsAtReset : Prop := State.reset.Inv

/-- Every step keeps the invariant of Safety.lean: a response is held only when the table is available, and it is one that
30_encoding.md section 4 lists for the register as it stands, and the fill never exceeds the implementation's fill time. -/
def Obligations.EveryStepKeepsTheInvariant : Prop :=
  ∀ s t : State, s.Inv → step s = .next t → t.Inv ∧ t.fillTime = s.fillTime ∧ t.engine = s.engine

/-- From a state of the invariant the only fault is the hang, and only with a response held and no move of the host left; the
only refusal is that of an edge before the first reset (60_exceptions.md sections 1 and 4, log 7, log 8). -/
def Obligations.OnlyAnUntakenResponseStopsTheMachine : Prop :=
  ∀ s : State, s.Inv →
    (∀ f, step s = .fault f → f = .hang ∧ s.known = true ∧ s.rspPending = true ∧ s.host = []) ∧
    (∀ r, step s = .refused r → r = .beforeFirstReset ∧ s.known = false) ∧
    (s.known = true → s.rspPending = true → s.host = [] → step s = .fault .hang)

/-- The port level refines the transaction level (70_reset_and_hazards.md section 2, The transaction level): in a run without
reset from a state with no response held, the commands taken, the responses the host took with the one still held, and the
register are those of `Run` on the commands taken. -/
def Obligations.PortRunsRefineTransactionRuns : Prop :=
  ∀ (k : Nat) (s t : State), s.known = true → s.rspPending = false → (∀ m ∈ s.host.take k, m.noReset = true) →
    runSteps k s = .next t →
    txRun s.crc (commandsTaken k s) = (t.crc, responsesTaken k s ++ t.heldResponse.toList) ∧
    (t.rspPending = false → txRun s.crc (commandsTaken k s) = (t.crc, responsesTaken k s))

/-- The shortest schedule of a host that keeps its duties, `conformingHost`, has every command taken once, in order, and every
response, in two edges per command (70_reset_and_hazards.md section 2 and section 4). The number of edges is the model's DESIGN
CHOICE (log 13). Every other such schedule: `EveryDutifulHostGetsEveryResponse`. -/
def Obligations.ConformingHostGetsEveryResponse : Prop :=
  ∀ (s : State) (ws : List CmdWord), s.ready = true →
    commandsTaken (2 * ws.length) { s with host := conformingHost ws } = ws ∧
    observe (2 * ws.length) { s with host := conformingHost ws } =
      some ⟨(txRun s.crc ws).2, (txRun s.crc ws).1⟩

/-- Every host that keeps the duties of `keepsDuties` (70_reset_and_hazards.md sections 2 and 3), whatever it waits and however it
overlaps its offers with the responses: every word it issues is taken once, in order, and its run ends with the responses and the
register of `Run`. `k` is the number of the host's moves; the table's fill may be going on when they begin. -/
def Obligations.EveryDutifulHostGetsEveryResponse : Prop :=
  ∀ (ws : List CmdWord) (k : Nat) (s : State), s.known = true → s.rspPending = false → s.offered = [] →
    keepsDuties ws k s →
    commandsTaken k s = ws ∧ observe k s = some ⟨(txRun s.crc ws).2, (txRun s.crc ws).1⟩

/-- The end of a run (70_reset_and_hazards.md section 2; the form is the model's DESIGN CHOICE, log 18, and a response taken at an
edge with `rst = 1` counts as had, log 10): a run whose last response a reset or a power loss discards has no observation, a run
whose host has had it keeps the register as it was then, and where there is an observation the host has no move left and has had
as many responses as commands were taken. Of the state before the first reset nothing is observed. -/
def Obligations.RunEndsWithTheResponseToItsLastCommand : Prop :=
  (∀ (s : State) (w : CmdWord), s.ready = true →
    observe 2 { s with host := [.edge (offerPorts w), .edge resetPorts] } = none ∧
    observe 2 { s with host := [.edge (offerPorts w), .powerLoss] } = none ∧
    observe 3 { s with host := [.edge (offerPorts w), .edge takePorts, .edge resetPorts] } =
      some ⟨[(txStep s.crc w).2], (txStep s.crc w).1⟩) ∧
  (∀ (k : Nat) (s t : State), runSteps k s = .next t → t.known = true → t.rspPending = true → observe k s = none) ∧
  (∀ (k : Nat) (s : State) (o : Observation), s.known = true → observe k s = some o →
    (∃ t, runSteps k s = .next t ∧ t.host = []) ∧ o.responses = responsesTaken k s ∧
    o.responses.length = (commandsTaken k s).length + if s.rspPending = true then 1 else 0) ∧
  (∀ (k : Nat) (s : State), s.known = false → responsesTaken k s = [] → observe k s = none)

/-- The whole-buffer function at the ports: a host with the schedule `conformingHost` reads `crc32(d)` from any ready state
(41_crc32_function.md section 1 with 70_reset_and_hazards.md section 2). That `2 * (n + 2)` edges are enough is the model's DESIGN
CHOICE of timing (log 13). -/
def Obligations.PortsDeliverTheChecksumOfAnyMessage : Prop :=
  ∀ (s : State) (d : List Byte), s.ready = true →
    observe (2 * (d.length + 2)) { s with host := conformingHost (crc32Words d) } =
      some ⟨List.replicate (d.length + 1) ⟨.ack, 0x00000000⟩ ++ [⟨.data, crc32 d⟩], rawCrc 0xFFFFFFFF d⟩

/-- The kind and data of an empty response register are never observed (93_implementation_defined.md U4, log 4): two states that
agree but for them, and whatever the free values are, make steps that agree, take the same command and give the same
response. -/
def Obligations.IdleResponseValuesAreNeverObserved : Prop :=
  ∀ (s t : State) (p : PortIn) (rest : List HostMove),
    s.host = .edge p :: rest → t.host = .edge p :: rest → s.agrees t → s.fillTime = t.fillTime →
    s.offered = t.offered → (∀ w ∈ s.offered, w = p.cmd) →
    s.commandAt = t.commandAt ∧ s.responseAt = t.responseAt ∧
    ((∃ s' t', step s = .next s' ∧ step t = .next t' ∧ s'.agrees t' ∧ s'.offered = t'.offered ∧
        s'.fillTime = t'.fillTime ∧ s'.host = rest ∧ t'.host = rest) ∨
      (∃ f, step s = .fault f ∧ step t = .fault f) ∨
      (∃ r, step s = .refused r ∧ step t = .refused r))

/-! ## Several engines -/

/-- Steps of two different engines commute (60_exceptions.md section 5): no command to one instance affects another. A step of
one engine is its own step, and changes no other engine. That an engine without a step stays as it is, is the model's DESIGN
CHOICE (log 14). -/
def Obligations.StepsOfDifferentEnginesCommute : Prop :=
  ∀ (n : Nat) (j k : Fin n) (y : System n), enginesOk n = true → j ≠ k →
    System.stepEngine k (System.stepEngine j y) = System.stepEngine j (System.stepEngine k y) ∧
    (System.stepEngine j y)[k] = y[k] ∧
    (∀ t, step y[j] = .next t → (System.stepEngine j y)[j] = t) ∧
    ((∀ t, step y[j] ≠ .next t) → System.stepEngine j y = y)

/-- Each engine of a system runs as it would alone, whatever the order in which the engines step (60_exceptions.md section 5):
after a schedule, engine `k` is where its own steps take it. That a schedule is a list of engines, one step at a time, and that
an engine without a step stays while the others go on, is the model's DESIGN CHOICE (log 14); the schedule of every engine once
is one edge of a clock they share. -/
def Obligations.EachEngineRunsAsIfAlone : Prop :=
  ∀ (n : Nat) (y : System n), enginesOk n = true →
    (∀ (ks : List (Fin n)) (k : Fin n),
      (System.runSchedule ks y)[k] = Nat.iterate stepOrStay (ks.count k) y[k] ∧
      (∀ t, runSteps (ks.count k) y[k] = .next t → (System.runSchedule ks y)[k] = t) ∧
      ((∀ t, step y[k] ≠ .next t) → (System.runSchedule ks y)[k] = y[k])) ∧
    System.runSchedule (List.finRange n) y = System.stepAll y

/-! ## The assembler -/

/-- Disassembly, assembled again, gives the same word, for every word, legal or illegal (30_encoding.md section 5; the details
of the text's form are the model's, log 12). -/
def Obligations.DisassemblyReassembles : Prop :=
  ∀ w : CmdWord, assembleLine (disassemble w) = some [w]

/-- The examples of 30_encoding.md R59, R60 and R62 as text, and an immediate out of range as an assembly error. -/
def Obligations.AssemblerExamples : Prop :=
  assembleLine ['c', 'r', 'c', '.', 'b', 'y', 't', 'e', ' ', '0', 'x', '3', '1'] = some [0x0231] ∧
  assembleLine ['c', 'r', 'c', '.', 'b', 'y', 't', 'e', ' ', '4', '9'] = some [0x0231] ∧
  assembleLine ['c', 'r', 'c', '.', 'b', 'y', 't', 'e', ' ', '\'', '1', '\''] = some [0x0231] ∧
  assembleLine ['c', 'r', 'c', '.', 'b', 'y', 't', 'e', ' ', '2', '5', '6'] = none ∧
  assembleLine ['c', 'r', 'c', '.', 'b', 'y', 't', 'e', 's', ' ', '0', 'x', '6', '1', ',', ' ', '0', 'x', '6', '2'] =
    some [0x0261, 0x0262] ∧
  assembleLine ['c', 'r', 'c', '.', 's', 't', 'r', ' ', '"', 'a', 'b', '"'] = some [0x0261, 0x0262] ∧
  assembleLine ['c', 'r', 'c', '3', '2', ' ', '"', '"'] = some [0x0100, 0x0300]

/-- The pseudo-instructions expand to their commands, and an immediate out of range is an assembly error
(30_encoding.md section 5). -/
def Obligations.PseudoInstructionsExpandInOrder : Prop :=
  (∀ imms : List Nat, imms ≠ [] → (∀ n ∈ imms, n < 256) →
    assembleStmt (.crcBytes imms) = some (imms.map fun n => 0x0200 + BitVec.ofNat 16 n)) ∧
  (∀ cs : List Char, (∀ c ∈ cs, c.toNat < 128) →
    assembleStmt (.crcStr cs) = some (cs.map fun c => 0x0200 + BitVec.ofNat 16 c.toNat) ∧
    assembleStmt (.crc32 (.text cs)) = some (crc32Words (cs.map fun c => BitVec.ofNat 8 c.toNat))) ∧
  (∀ imms : List Nat, imms ≠ [] → (∀ n ∈ imms, n < 256) →
    assembleStmt (.crc32 (.list imms)) = some (crc32Words (imms.map fun n => BitVec.ofNat 8 n))) ∧
  (∀ n : Nat, 256 ≤ n → assembleStmt (.crcByte n) = none) ∧
  (∀ imms : List Nat, (∃ n ∈ imms, 256 ≤ n) → assembleStmt (.crcBytes imms) = none)
end

