-- ==== Sys2Proof/Laws/State.lean ====
section
/-! SUPPORT. One lemma per field per update of the state, so that no later proof unfolds a record update. -/

namespace Sys2Proof.Machine

/-! `crc <- v` -/

@[simp] theorem State.setCrc_crc (s : State) (v : Word32) : (s.setCrc v).crc = v := rfl
@[simp] theorem State.setCrc_rspPending (s : State) (v : Word32) : (s.setCrc v).rspPending = s.rspPending := rfl
@[simp] theorem State.setCrc_rspKind (s : State) (v : Word32) : (s.setCrc v).rspKind = s.rspKind := rfl
@[simp] theorem State.setCrc_rspData (s : State) (v : Word32) : (s.setCrc v).rspData = s.rspData := rfl
@[simp] theorem State.setCrc_known (s : State) (v : Word32) : (s.setCrc v).known = s.known := rfl
@[simp] theorem State.setCrc_fillLeft (s : State) (v : Word32) : (s.setCrc v).fillLeft = s.fillLeft := rfl
@[simp] theorem State.setCrc_fillTime (s : State) (v : Word32) : (s.setCrc v).fillTime = s.fillTime := rfl
@[simp] theorem State.setCrc_offered (s : State) (v : Word32) : (s.setCrc v).offered = s.offered := rfl
@[simp] theorem State.setCrc_host (s : State) (v : Word32) : (s.setCrc v).host = s.host := rfl
@[simp] theorem State.setCrc_engine (s : State) (v : Word32) : (s.setCrc v).engine = s.engine := rfl
@[simp] theorem State.setCrc_tick (s : State) (v : Word32) : (s.setCrc v).tick = s.tick := rfl

/-! `respond(kind, data)` -/

@[simp] theorem State.respond_crc (s : State) (k : RspKind) (d : Word32) : (s.respond k d).crc = s.crc := rfl
@[simp] theorem State.respond_rspPending (s : State) (k : RspKind) (d : Word32) : (s.respond k d).rspPending = true := rfl
@[simp] theorem State.respond_rspKind (s : State) (k : RspKind) (d : Word32) : (s.respond k d).rspKind = k.code := rfl
@[simp] theorem State.respond_rspData (s : State) (k : RspKind) (d : Word32) : (s.respond k d).rspData = d := rfl
@[simp] theorem State.respond_known (s : State) (k : RspKind) (d : Word32) : (s.respond k d).known = s.known := rfl
@[simp] theorem State.respond_fillLeft (s : State) (k : RspKind) (d : Word32) : (s.respond k d).fillLeft = s.fillLeft := rfl
@[simp] theorem State.respond_fillTime (s : State) (k : RspKind) (d : Word32) : (s.respond k d).fillTime = s.fillTime := rfl
@[simp] theorem State.respond_offered (s : State) (k : RspKind) (d : Word32) : (s.respond k d).offered = s.offered := rfl
@[simp] theorem State.respond_host (s : State) (k : RspKind) (d : Word32) : (s.respond k d).host = s.host := rfl
@[simp] theorem State.respond_engine (s : State) (k : RspKind) (d : Word32) : (s.respond k d).engine = s.engine := rfl
@[simp] theorem State.respond_tick (s : State) (k : RspKind) (d : Word32) : (s.respond k d).tick = s.tick := rfl

/-! no response held -/

@[simp] theorem State.dropResponse_crc (s : State) : (s.dropResponse).crc = s.crc := rfl
@[simp] theorem State.dropResponse_rspPending (s : State) : (s.dropResponse).rspPending = false := rfl
@[simp] theorem State.dropResponse_rspKind (s : State) : (s.dropResponse).rspKind = Config.idleRspKind s.engine s.tick := rfl
@[simp] theorem State.dropResponse_rspData (s : State) : (s.dropResponse).rspData = Config.idleRspData s.engine s.tick := rfl
@[simp] theorem State.dropResponse_known (s : State) : (s.dropResponse).known = s.known := rfl
@[simp] theorem State.dropResponse_fillLeft (s : State) : (s.dropResponse).fillLeft = s.fillLeft := rfl
@[simp] theorem State.dropResponse_fillTime (s : State) : (s.dropResponse).fillTime = s.fillTime := rfl
@[simp] theorem State.dropResponse_offered (s : State) : (s.dropResponse).offered = s.offered := rfl
@[simp] theorem State.dropResponse_host (s : State) : (s.dropResponse).host = s.host := rfl
@[simp] theorem State.dropResponse_engine (s : State) : (s.dropResponse).engine = s.engine := rfl
@[simp] theorem State.dropResponse_tick (s : State) : (s.dropResponse).tick = s.tick := rfl

/-! an edge that takes no command -/

@[simp] theorem State.sampled_crc (s : State) (p : PortIn) : (s.sampled p).crc = s.crc := rfl
@[simp] theorem State.sampled_rspPending (s : State) (p : PortIn) : (s.sampled p).rspPending = s.rspPending := rfl
@[simp] theorem State.sampled_rspKind (s : State) (p : PortIn) : (s.sampled p).rspKind = s.rspKind := rfl
@[simp] theorem State.sampled_rspData (s : State) (p : PortIn) : (s.sampled p).rspData = s.rspData := rfl
@[simp] theorem State.sampled_known (s : State) (p : PortIn) : (s.sampled p).known = s.known := rfl
@[simp] theorem State.sampled_fillLeft (s : State) (p : PortIn) : (s.sampled p).fillLeft = s.fillLeft := rfl
@[simp] theorem State.sampled_fillTime (s : State) (p : PortIn) : (s.sampled p).fillTime = s.fillTime := rfl
@[simp] theorem State.sampled_offered (s : State) (p : PortIn) : (s.sampled p).offered = (if p.cmdValid then s.offered ++ [p.cmd] else []) := rfl
@[simp] theorem State.sampled_host (s : State) (p : PortIn) : (s.sampled p).host = s.host := rfl
@[simp] theorem State.sampled_engine (s : State) (p : PortIn) : (s.sampled p).engine = s.engine := rfl
@[simp] theorem State.sampled_tick (s : State) (p : PortIn) : (s.sampled p).tick = s.tick + 1 := rfl

/-! the edge that takes a command -/

@[simp] theorem State.accepted_crc (s : State) : (s.accepted).crc = s.crc := rfl
@[simp] theorem State.accepted_rspPending (s : State) : (s.accepted).rspPending = s.rspPending := rfl
@[simp] theorem State.accepted_rspKind (s : State) : (s.accepted).rspKind = s.rspKind := rfl
@[simp] theorem State.accepted_rspData (s : State) : (s.accepted).rspData = s.rspData := rfl
@[simp] theorem State.accepted_known (s : State) : (s.accepted).known = s.known := rfl
@[simp] theorem State.accepted_fillLeft (s : State) : (s.accepted).fillLeft = s.fillLeft := rfl
@[simp] theorem State.accepted_fillTime (s : State) : (s.accepted).fillTime = s.fillTime := rfl
@[simp] theorem State.accepted_offered (s : State) : (s.accepted).offered = [] := rfl
@[simp] theorem State.accepted_host (s : State) : (s.accepted).host = s.host := rfl
@[simp] theorem State.accepted_engine (s : State) : (s.accepted).engine = s.engine := rfl
@[simp] theorem State.accepted_tick (s : State) : (s.accepted).tick = s.tick + 1 := rfl

/-! the response is taken -/

@[simp] theorem State.releaseEdge_crc (s : State) (p : PortIn) : (s.releaseEdge p).crc = s.crc := rfl
@[simp] theorem State.releaseEdge_rspPending (s : State) (p : PortIn) : (s.releaseEdge p).rspPending = false := rfl
@[simp] theorem State.releaseEdge_rspKind (s : State) (p : PortIn) : (s.releaseEdge p).rspKind = Config.idleRspKind s.engine (s.tick + 1) := rfl
@[simp] theorem State.releaseEdge_rspData (s : State) (p : PortIn) : (s.releaseEdge p).rspData = Config.idleRspData s.engine (s.tick + 1) := rfl
@[simp] theorem State.releaseEdge_known (s : State) (p : PortIn) : (s.releaseEdge p).known = s.known := rfl
@[simp] theorem State.releaseEdge_fillLeft (s : State) (p : PortIn) : (s.releaseEdge p).fillLeft = s.fillLeft := rfl
@[simp] theorem State.releaseEdge_fillTime (s : State) (p : PortIn) : (s.releaseEdge p).fillTime = s.fillTime := rfl
@[simp] theorem State.releaseEdge_offered (s : State) (p : PortIn) : (s.releaseEdge p).offered = (if p.cmdValid then s.offered ++ [p.cmd] else []) := rfl
@[simp] theorem State.releaseEdge_host (s : State) (p : PortIn) : (s.releaseEdge p).host = s.host := rfl
@[simp] theorem State.releaseEdge_engine (s : State) (p : PortIn) : (s.releaseEdge p).engine = s.engine := rfl
@[simp] theorem State.releaseEdge_tick (s : State) (p : PortIn) : (s.releaseEdge p).tick = s.tick + 1 := rfl

/-! the response stays held -/

@[simp] theorem State.waitEdge_crc (s : State) (p : PortIn) : (s.waitEdge p).crc = s.crc := rfl
@[simp] theorem State.waitEdge_rspPending (s : State) (p : PortIn) : (s.waitEdge p).rspPending = s.rspPending := rfl
@[simp] theorem State.waitEdge_rspKind (s : State) (p : PortIn) : (s.waitEdge p).rspKind = s.rspKind := rfl
@[simp] theorem State.waitEdge_rspData (s : State) (p : PortIn) : (s.waitEdge p).rspData = s.rspData := rfl
@[simp] theorem State.waitEdge_known (s : State) (p : PortIn) : (s.waitEdge p).known = s.known := rfl
@[simp] theorem State.waitEdge_fillLeft (s : State) (p : PortIn) : (s.waitEdge p).fillLeft = s.fillLeft := rfl
@[simp] theorem State.waitEdge_fillTime (s : State) (p : PortIn) : (s.waitEdge p).fillTime = s.fillTime := rfl
@[simp] theorem State.waitEdge_offered (s : State) (p : PortIn) : (s.waitEdge p).offered = (if p.cmdValid then s.offered ++ [p.cmd] else []) := rfl
@[simp] theorem State.waitEdge_host (s : State) (p : PortIn) : (s.waitEdge p).host = s.host := rfl
@[simp] theorem State.waitEdge_engine (s : State) (p : PortIn) : (s.waitEdge p).engine = s.engine := rfl
@[simp] theorem State.waitEdge_tick (s : State) (p : PortIn) : (s.waitEdge p).tick = s.tick + 1 := rfl

/-! nothing is issued -/

@[simp] theorem State.quietEdge_crc (s : State) (p : PortIn) : (s.quietEdge p).crc = s.crc := rfl
@[simp] theorem State.quietEdge_rspPending (s : State) (p : PortIn) : (s.quietEdge p).rspPending = false := rfl
@[simp] theorem State.quietEdge_rspKind (s : State) (p : PortIn) : (s.quietEdge p).rspKind = Config.idleRspKind s.engine (s.tick + 1) := rfl
@[simp] theorem State.quietEdge_rspData (s : State) (p : PortIn) : (s.quietEdge p).rspData = Config.idleRspData s.engine (s.tick + 1) := rfl
@[simp] theorem State.quietEdge_known (s : State) (p : PortIn) : (s.quietEdge p).known = s.known := rfl
@[simp] theorem State.quietEdge_fillLeft (s : State) (p : PortIn) : (s.quietEdge p).fillLeft = s.fillLeft := rfl
@[simp] theorem State.quietEdge_fillTime (s : State) (p : PortIn) : (s.quietEdge p).fillTime = s.fillTime := rfl
@[simp] theorem State.quietEdge_offered (s : State) (p : PortIn) : (s.quietEdge p).offered = (if p.cmdValid then s.offered ++ [p.cmd] else []) := rfl
@[simp] theorem State.quietEdge_host (s : State) (p : PortIn) : (s.quietEdge p).host = s.host := rfl
@[simp] theorem State.quietEdge_engine (s : State) (p : PortIn) : (s.quietEdge p).engine = s.engine := rfl
@[simp] theorem State.quietEdge_tick (s : State) (p : PortIn) : (s.quietEdge p).tick = s.tick + 1 := rfl

/-! an edge of the fill -/

@[simp] theorem State.fillEdge_crc (s : State) (p : PortIn) : (s.fillEdge p).crc = s.crc := rfl
@[simp] theorem State.fillEdge_rspPending (s : State) (p : PortIn) : (s.fillEdge p).rspPending = false := rfl
@[simp] theorem State.fillEdge_rspKind (s : State) (p : PortIn) : (s.fillEdge p).rspKind = Config.idleRspKind s.engine (s.tick + 1) := rfl
@[simp] theorem State.fillEdge_rspData (s : State) (p : PortIn) : (s.fillEdge p).rspData = Config.idleRspData s.engine (s.tick + 1) := rfl
@[simp] theorem State.fillEdge_known (s : State) (p : PortIn) : (s.fillEdge p).known = s.known := rfl
@[simp] theorem State.fillEdge_fillLeft (s : State) (p : PortIn) : (s.fillEdge p).fillLeft = s.fillLeft - 1 := rfl
@[simp] theorem State.fillEdge_fillTime (s : State) (p : PortIn) : (s.fillEdge p).fillTime = s.fillTime := rfl
@[simp] theorem State.fillEdge_offered (s : State) (p : PortIn) : (s.fillEdge p).offered = (if p.cmdValid then s.offered ++ [p.cmd] else []) := rfl
@[simp] theorem State.fillEdge_host (s : State) (p : PortIn) : (s.fillEdge p).host = s.host := rfl
@[simp] theorem State.fillEdge_engine (s : State) (p : PortIn) : (s.fillEdge p).engine = s.engine := rfl
@[simp] theorem State.fillEdge_tick (s : State) (p : PortIn) : (s.fillEdge p).tick = s.tick + 1 := rfl

/-! an edge with reset -/

@[simp] theorem State.resetEdge_crc (s : State) (p : PortIn) : (s.resetEdge p).crc = Config.init := rfl
@[simp] theorem State.resetEdge_rspPending (s : State) (p : PortIn) : (s.resetEdge p).rspPending = false := rfl
@[simp] theorem State.resetEdge_rspKind (s : State) (p : PortIn) : (s.resetEdge p).rspKind = Config.idleRspKind s.engine (s.tick + 1) := rfl
@[simp] theorem State.resetEdge_rspData (s : State) (p : PortIn) : (s.resetEdge p).rspData = Config.idleRspData s.engine (s.tick + 1) := rfl
@[simp] theorem State.resetEdge_known (s : State) (p : PortIn) : (s.resetEdge p).known = true := rfl
@[simp] theorem State.resetEdge_fillLeft (s : State) (p : PortIn) : (s.resetEdge p).fillLeft = (if s.known then s.fillLeft else s.fillTime) := rfl
@[simp] theorem State.resetEdge_fillTime (s : State) (p : PortIn) : (s.resetEdge p).fillTime = s.fillTime := rfl
@[simp] theorem State.resetEdge_offered (s : State) (p : PortIn) : (s.resetEdge p).offered = [] := rfl
@[simp] theorem State.resetEdge_host (s : State) (p : PortIn) : (s.resetEdge p).host = s.host := rfl
@[simp] theorem State.resetEdge_engine (s : State) (p : PortIn) : (s.resetEdge p).engine = s.engine := rfl
@[simp] theorem State.resetEdge_tick (s : State) (p : PortIn) : (s.resetEdge p).tick = s.tick + 1 := rfl

/-! power is lost -/

@[simp] theorem State.losePower_crc (s : State) : (s.losePower).crc = Config.powerUpCrc s.engine s.tick := rfl
@[simp] theorem State.losePower_rspPending (s : State) : (s.losePower).rspPending = Config.powerUpPending s.engine s.tick := rfl
@[simp] theorem State.losePower_rspKind (s : State) : (s.losePower).rspKind = Config.powerUpRspKind s.engine s.tick := rfl
@[simp] theorem State.losePower_rspData (s : State) : (s.losePower).rspData = Config.powerUpRspData s.engine s.tick := rfl
@[simp] theorem State.losePower_known (s : State) : (s.losePower).known = false := rfl
@[simp] theorem State.losePower_fillLeft (s : State) : (s.losePower).fillLeft = s.fillTime := rfl
@[simp] theorem State.losePower_fillTime (s : State) : (s.losePower).fillTime = s.fillTime := rfl
@[simp] theorem State.losePower_offered (s : State) : (s.losePower).offered = s.offered := rfl
@[simp] theorem State.losePower_host (s : State) : (s.losePower).host = s.host := rfl
@[simp] theorem State.losePower_engine (s : State) : (s.losePower).engine = s.engine := rfl
@[simp] theorem State.losePower_tick (s : State) : (s.losePower).tick = s.tick + 1 := rfl

/-! the host offers a word next -/

@[simp] theorem State.offerNext_crc (s : State) (w : CmdWord) : (s.offerNext w).crc = s.crc := rfl
@[simp] theorem State.offerNext_rspPending (s : State) (w : CmdWord) : (s.offerNext w).rspPending = false := rfl
@[simp] theorem State.offerNext_rspKind (s : State) (w : CmdWord) : (s.offerNext w).rspKind = s.rspKind := rfl
@[simp] theorem State.offerNext_rspData (s : State) (w : CmdWord) : (s.offerNext w).rspData = s.rspData := rfl
@[simp] theorem State.offerNext_known (s : State) (w : CmdWord) : (s.offerNext w).known = true := rfl
@[simp] theorem State.offerNext_fillLeft (s : State) (w : CmdWord) : (s.offerNext w).fillLeft = 0 := rfl
@[simp] theorem State.offerNext_fillTime (s : State) (w : CmdWord) : (s.offerNext w).fillTime = s.fillTime := rfl
@[simp] theorem State.offerNext_offered (s : State) (w : CmdWord) : (s.offerNext w).offered = [] := rfl
@[simp] theorem State.offerNext_host (s : State) (w : CmdWord) : (s.offerNext w).host = .edge (offerPorts w) :: s.host.drop 1 := rfl
@[simp] theorem State.offerNext_engine (s : State) (w : CmdWord) : (s.offerNext w).engine = s.engine := rfl
@[simp] theorem State.offerNext_tick (s : State) (w : CmdWord) : (s.offerNext w).tick = s.tick := rfl

end Sys2Proof.Machine
end

