-- ==== Sys2Proof/Laws/Ops.lean ====
section
/-! SUPPORT. For each shared operation, once, what it can do. -/

namespace Sys2Proof.Machine

/-- A host reads back the code of each kind the engine produces. -/
@[simp] theorem RspKind.ofCode_code (k : RspKind) : RspKind.ofCode k.code = some k := by
  cases k <;> rfl

@[simp] theorem Response.ofPorts_code (k : RspKind) (d : Word32) : Response.ofPorts k.code d = some ⟨k, d⟩ := by
  simp [Response.ofPorts]

/-- Only the reserved code is read as no kind. -/
theorem RspKind.ofCode_none_iff (c : BitVec 2) : RspKind.ofCode c = none ↔ c = 0b11 := by
  revert c; decide

/-- What `respond` leaves is the response a host reads. -/
@[simp] theorem State.heldResponse_respond (s : State) (k : RspKind) (d : Word32) :
    (s.respond k d).heldResponse = some ⟨k, d⟩ := by
  simp [State.heldResponse]

theorem State.heldResponse_of_pending {s : State} (h : s.rspPending = true) :
    s.heldResponse = Response.ofPorts s.rspKind s.rspData := by
  simp [State.heldResponse, h]

@[simp] theorem State.heldResponse_of_idle {s : State} (h : s.rspPending = false) : s.heldResponse = none := by
  simp [State.heldResponse, h]

/-- The decoder's illegal answer names the word itself. -/
theorem decode_illegal_eq {w v : CmdWord} (h : decode w = .illegal v) : v = w := by
  unfold decode at h
  split_ifs at h
  cases h
  rfl

/-- A word performed answers a next state: the meaning of the command it spells, or the ILLEGAL response. -/
theorem performWord_cases (w : CmdWord) (s : State) :
    (∃ i, decode w = .instr i ∧ performWord w s = exec i s) ∨
    (decode w = .illegal w ∧ performWord w s = .next (s.respond .illegal (zextWord w))) := by
  cases h : decode w with
  | instr i => exact .inl ⟨i, rfl, by simp [performWord, h]⟩
  | illegal v =>
    obtain rfl := decode_illegal_eq h
    exact .inr ⟨rfl, by simp [performWord, h, raiseIllegal]⟩

/-- Where the host held its word through the offer, that word is taken (70_reset_and_hazards.md R104). -/
theorem State.takenWord_of_stable {s : State} {p : PortIn} (h : ∀ w ∈ s.offered, w = p.cmd) : s.takenWord p = p.cmd := by
  have all : s.offered.all (fun w => w = p.cmd) = true := by
    simpa only [List.all_eq_true, decide_eq_true_eq] using h
  rw [State.takenWord, if_pos all]

/-- What one rising edge can do, guards included (70_reset_and_hazards.md R100 to R105). -/
theorem clockEdge_cases (p : PortIn) (s : State) :
    (p.rst = true ∧ clockEdge p s = .next (s.resetEdge p)) ∨
    (p.rst = false ∧ s.known = false ∧ clockEdge p s = .refused .beforeFirstReset) ∨
    (p.rst = false ∧ s.known = true ∧ s.rspPending = true ∧ p.rspReady = true ∧
      clockEdge p s = deliverResponse p s) ∨
    (p.rst = false ∧ s.known = true ∧ s.rspPending = true ∧ p.rspReady = false ∧
      clockEdge p s = .next (s.waitEdge p)) ∨
    (p.rst = false ∧ s.known = true ∧ s.rspPending = false ∧ s.fillLeft ≠ 0 ∧
      clockEdge p s = .next (s.fillEdge p)) ∨
    (p.rst = false ∧ s.known = true ∧ s.rspPending = false ∧ s.fillLeft = 0 ∧ p.cmdValid = true ∧
      clockEdge p s = performWord (s.takenWord p) s.accepted) ∨
    (p.rst = false ∧ s.known = true ∧ s.rspPending = false ∧ s.fillLeft = 0 ∧ p.cmdValid = false ∧
      clockEdge p s = .next (s.quietEdge p)) := by
  unfold clockEdge
  cases p.rst <;> cases s.known <;> cases s.rspPending <;> cases p.rspReady <;> cases p.cmdValid <;>
    by_cases h : s.fillLeft = 0 <;> simp [h]

/-- What the edge that gives the response can do (70_reset_and_hazards.md R105, 30_encoding.md R57). -/
theorem deliverResponse_cases (p : PortIn) (s : State) :
    (s.heldResponse = none ∧ deliverResponse p s = .fault .reservedResponse) ∨
    (∃ r, s.heldResponse = some r ∧ deliverResponse p s = .next (s.releaseEdge p)) := by
  cases h : s.heldResponse with
  | none => exact .inl ⟨rfl, by simp [deliverResponse, h]⟩
  | some r => exact .inr ⟨r, rfl, by simp [deliverResponse, h]⟩

/-- What a step can do: the hang, an edge of the ports left low, or the next move of the list. -/
theorem step_cases (s : State) :
    (s.host = [] ∧ s.known = true ∧ s.rspPending = true ∧ step s = .fault .hang) ∨
    (s.host = [] ∧ (s.known = false ∨ s.rspPending = false) ∧ step s = clockEdge lowPorts s) ∨
    (∃ p rest, s.host = .edge p :: rest ∧ step s = clockEdge p { s with host := rest }) ∨
    (∃ rest, s.host = .powerLoss :: rest ∧ step s = .next ({ s with host := rest } : State).losePower) := by
  cases h : s.host with
  | nil =>
    cases hk : s.known <;> cases hp : s.rspPending <;> simp [step, h, hostSilent, hk, hp]
  | cons m rest =>
    cases m <;> simp [step, h, performMove]

end Sys2Proof.Machine
end

