-- ==== Sys2Proof/Laws/PerInstr.lean ====
section
/-! SUPPORT. Statements made for every instruction, one lemma per constructor. -/

namespace Sys2Proof.Laws

/-- The encoder writes a word that selects the command's row of the opcode map (30_encoding.md R52), and the row is one of the
map's. -/
def EncodeSelectsRow.Statement (i : Instr) : Prop :=
  (opcodeRow i).selects (encode i) = true ∧ opcodeRow i ∈ opcodeMap

theorem EncodeSelectsRow.nop : EncodeSelectsRow.Statement .nop := by
  unfold EncodeSelectsRow.Statement; decide

theorem EncodeSelectsRow.crcInit : EncodeSelectsRow.Statement .crcInit := by
  unfold EncodeSelectsRow.Statement; decide

theorem EncodeSelectsRow.crcByte : ∀ b : Byte, EncodeSelectsRow.Statement (.crcByte b) := by
  unfold EncodeSelectsRow.Statement; decide

theorem EncodeSelectsRow.crcRead : EncodeSelectsRow.Statement .crcRead := by
  unfold EncodeSelectsRow.Statement; decide

end Sys2Proof.Laws
end

