-- ==== Sys2Proof/Laws/Run.lean ====
section
/-! SUPPORT. What one more step does to a run, to what the host has seen of it, and to an engine of a system. -/

namespace Sys2Proof.Machine

theorem runSteps_succ_of_next {s t : State} (h : step s = .next t) (k : Nat) : runSteps (k + 1) s = runSteps k t := by
  simp only [runSteps, h]

theorem commandsTaken_succ_of_next {s t : State} (h : step s = .next t) (k : Nat) :
    commandsTaken (k + 1) s = s.commandAt.toList ++ commandsTaken k t := by
  simp only [commandsTaken, h]

theorem responsesTaken_succ_of_next {s t : State} (h : step s = .next t) (k : Nat) :
    responsesTaken (k + 1) s = s.responseAt.toList ++ responsesTaken k t := by
  simp only [responsesTaken, h]

theorem hostView_succ_of_next {s t : State} (h : step s = .next t) (k : Nat) (v : HostView) :
    hostView (k + 1) v s = hostView k (s.viewAfter v) t := by
  simp only [hostView, h]

/-- One more edge of a host that keeps its duties. -/
theorem keepsDuties_succ_of_next {s t : State} {p : PortIn} {rest : List HostMove} {ws : List CmdWord} {k : Nat}
    (h : step s = .next t) (hm : s.host = .edge p :: rest) (hr : p.rst = false)
    (hw : p.cmdValid = true → ws.head? = some p.cmd) (ho : s.offered ≠ [] → p.cmdValid = true) :
    keepsDuties ws (k + 1) s ↔ keepsDuties (if s.takesCommand p then ws.tail else ws) k t := by
  constructor
  · rintro ⟨q, rest', hm', -, -, -, hk⟩
    rw [hm] at hm'
    cases hm'
    exact hk t h
  · intro hk
    refine ⟨p, rest, hm, hr, hw, ho, fun u hu => ?_⟩
    rw [h] at hu
    cases hu
    exact hk

/-- The machine's run is the host interface's run of the core. -/
theorem runSteps_eq_core_run (k : Nat) (s : State) : runSteps k s = Host.Core.run Sys2Proof.core k s := by
  induction k generalizing s with
  | zero => rfl
  | succ k ih =>
    have hc : Sys2Proof.core.step s = step s := rfl
    simp only [runSteps, Host.Core.run, hc]
    cases step s with
    | next t => exact ih t
    | fault r => rfl
    | refused r => rfl

/-- An engine of a system makes its step, or has none and stays. -/
theorem stepOrStay_cases (s : State) :
    (∃ t, step s = .next t ∧ stepOrStay s = t) ∨ ((∀ t, step s ≠ .next t) ∧ stepOrStay s = s) := by
  unfold stepOrStay
  cases h : step s with
  | next t => exact .inl ⟨t, rfl, rfl⟩
  | fault r => exact .inr ⟨fun _ e => (by cases e), rfl⟩
  | refused r => exact .inr ⟨fun _ e => (by cases e), rfl⟩

end Sys2Proof.Machine
end

