-- ==== Sys2Proof/Tests/Slice0.lean ====
section
/-! SUPPORT. Small tests: the smoke test of WellFormed, words written out from the encoding, the worked values of
95_test_vectors.md, and for each statement with hypotheses a witness that meets them. -/

namespace Sys2Proof.Tests

open Sys2Proof.Machine

/-! ## WellFormed: an ill-formed term for each check -/

theorem test_imm8_refused : (AsmStmt.crcByte 256).wf = false := by decide
theorem test_imm16_refused : (AsmStmt.word 65536).wf = false := by decide
theorem test_empty_list_refused : (AsmStmt.crcBytes []).wf = false := by decide
theorem test_list_value_refused : (AsmStmt.crcBytes [0x61, 256]).wf = false := by decide
theorem test_text_refused : (AsmStmt.crcStr [Char.ofNat 0xE9]).wf = false := by decide
theorem test_crc32_list_refused : (AsmStmt.crc32 (.list [])).wf = false := by decide
theorem test_crc32_text_refused : (AsmStmt.crc32 (.text [Char.ofNat 0xE9])).wf = false := by decide
theorem test_wf_accepts : (AsmStmt.crcBytes [0, 255]).wf = true ∧ (AsmStmt.word 65535).wf = true := by decide

/-! ## Decode and encode: words written out bit by bit from 30_encoding.md R52 -/

theorem test_decode_nop : decode 0b0000000000000000 = .instr .nop := by decide
theorem test_decode_init : decode 0b0000000100000000 = .instr .crcInit := by decide
theorem test_decode_byte : decode 0b0000001000110001 = .instr (.crcByte 0b00110001) := by decide
theorem test_decode_byte_low : decode 0x0200 = .instr (.crcByte 0x00) := by decide
theorem test_decode_byte_high : decode 0x02FF = .instr (.crcByte 0xFF) := by decide
theorem test_decode_read : decode 0b0000001100000000 = .instr .crcRead := by decide
/-- The boundary rows of V-ILLEGAL. -/
theorem test_decode_illegal :
    ([0x0001, 0x00FF, 0x0101, 0x01FF, 0x0301, 0x03FF, 0x0400, 0x04FF, 0x8000, 0xFF00, 0xFFFF] : List CmdWord).all
      (fun w => decode w = .illegal w) = true := by decide
theorem test_encode_byte : encode (.crcByte 0x31) = 0x0231 := by decide
theorem test_table_word : decodeTableWord 16 0x02A5 = some (.crcByte 0xA5) := by decide
theorem test_table_word_illegal : decodeTableWord 16 0x0401 = none := by decide

/-! ## The table: the traces of S3 -/

theorem test_table_01 : tableEntry 0x01 = 0x77073096 := by decide
theorem test_table_ff : tableEntry 0xFF = 0x2D02EF8D := by decide

/-! ## The commands: rows of V-INIT, V-BYTE, V-READ, V-NOP, V-ILLEGAL -/

/-- The register of a next state. -/
def nextCrc : Host.Outcome State Fault Refusal → Option Word32
  | .next s => some s.crc
  | .fault _ => none
  | .refused _ => none

/-- The response held in a next state. -/
def nextResponse : Host.Outcome State Fault Refusal → Option Response
  | .next s => s.heldResponse
  | .fault _ => none
  | .refused _ => none

/-- A reset engine with `crc = c` at the edge that offers it the word `w`. -/
def offering (c : Word32) (w : Nat) : State := ({ State.reset with crc := c } : State).withFetchWord 16 w

theorem test_init : nextCrc (step (offering 0x12345678 0x0100)) = some 0xFFFFFFFF := by decide
theorem test_init_ack : nextResponse (step (offering 0x12345678 0x0100)) = some ⟨.ack, 0⟩ := by decide
theorem test_byte_general : nextCrc (step (offering 0xDEADBEEF 0x02A5)) = some 0x96D70530 := by decide
theorem test_byte_logical_shift : nextCrc (step (offering 0x80000000 0x0200)) = some 0x00800000 := by decide
theorem test_read : nextResponse (step (offering 0xDEADBEEF 0x0300)) = some ⟨.data, 0x21524110⟩ := by decide
theorem test_read_keeps : nextCrc (step (offering 0xDEADBEEF 0x0300)) = some 0xDEADBEEF := by decide
theorem test_nop : nextCrc (step (offering 0xDEADBEEF 0x0000)) = some 0xDEADBEEF := by decide
theorem test_nop_ack : nextResponse (step (offering 0xDEADBEEF 0x0000)) = some ⟨.ack, 0⟩ := by decide
theorem test_illegal : nextResponse (step (offering 0xDEADBEEF 0x8000)) = some ⟨.illegal, 0x00008000⟩ := by decide
theorem test_illegal_keeps : nextCrc (step (offering 0xDEADBEEF 0xFFFF)) = some 0xDEADBEEF := by decide

/-! ## The end of a run (R108) and reset with an offer (R101) -/

/-- A reset engine with the moves `ms` to come. -/
def driven (ms : List HostMove) : State := { State.reset with host := ms }

theorem test_discarded_response_ends_no_run :
    observe 2 (driven [.edge (offerPorts 0x0300), .edge resetPorts]) = none := by decide
theorem test_taken_response_ends_the_run :
    observe 2 (driven [.edge (offerPorts 0x0300), .edge takePorts]) = some ⟨[⟨.data, 0⟩], 0xFFFFFFFF⟩ := by decide
/-- The word shown up to the reset is not the one taken after it. -/
theorem test_reset_ends_the_offer :
    (driven [.edge ⟨true, true, 0x0231, false⟩, .edge (offerPorts 0x0300)]).commandAt = none ∧
    commandsTaken 2 (driven [.edge ⟨true, true, 0x0231, false⟩, .edge (offerPorts 0x0300)]) = [0x0300] := by decide

/-! ## The assembler: the examples of R59 and P4 -/

theorem test_comment_line : assembleLine [' ', ';', ' ', 'x'] = some [] := by decide
theorem test_string_holds_semicolon : assembleLine ['c', 'r', 'c', '.', 's', 't', 'r', ' ', '"', ';', '"'] = some [0x023B] := by
  decide
theorem test_disassemble_byte : disassemble 0x02C2 = ['c', 'r', 'c', '.', 'b', 'y', 't', 'e', ' ', '0', 'x', 'C', '2'] := by
  decide
theorem test_disassemble_word : disassemble 0x0401 = ['.', 'w', 'o', 'r', 'd', ' ', '0', 'x', '0', '4', '0', '1'] := by decide

/-! ## Witnesses: for each statement with hypotheses, a state and operands that meet them -/

/-- An edge at which the host does nothing. -/
def idleMove : HostMove := .edge lowPorts

/-- A reset engine that holds the response to a READ of the empty message, with the moves `ms` to come. -/
def holding (ms : List HostMove) : State :=
  { State.reset with rspPending := true, rspKind := 0b01, rspData := 0, host := ms }

/-- A reset engine whose table fill takes three more edges. -/
def filling : State := { State.reset with fillTime := 3, fillLeft := 3, host := [idleMove, idleMove] }

/-- An engine that lost power and has not been reset. -/
def unpowered : State := { State.reset with known := false, fillTime := 3 }

theorem witness_ReservedOpcodesAreIllegal :
    0x04 ≤ ((0x0400 : CmdWord).extractLsb' 8 8).toNat ∧ 0x04 ≤ ((0xFFFF : CmdWord).extractLsb' 8 8).toNat := by decide

theorem witness_LegalWordsAreExactly259 :
    ((0x0001 : CmdWord).extractLsb' 8 8 = 0x00 ∧ (0x0001 : CmdWord).extractLsb' 0 8 ≠ 0x00) ∧
    ((0x01FF : CmdWord).extractLsb' 8 8 = 0x01 ∧ (0x01FF : CmdWord).extractLsb' 0 8 ≠ 0x00) ∧
    ((0x0301 : CmdWord).extractLsb' 8 8 = 0x03 ∧ (0x0301 : CmdWord).extractLsb' 0 8 ≠ 0x00) := by decide

theorem witness_DecodeAndEncodeAgree :
    (Instr.crcByte 0xFF).wf = true ∧ decode 0x02FF = .instr (.crcByte 0xFF) ∧ decode 0x0301 = .illegal 0x0301 := by decide

theorem witness_DecoderFollowsTheOpcodeMap : decode 0x0200 = .instr (.crcByte 0x00) := by decide

theorem witness_NopAcknowledgesAndChangesNothing :
    (0x0001 ≤ (0x00FF : CmdWord).toNat ∧ (0x00FF : CmdWord).toNat ≤ 0x00FF) ∧ (0x0001 ≤ (0x0001 : CmdWord).toNat) ∧
    (State.reset.known = true ∧ State.reset.rspPending = false ∧ lowPorts.rst = false ∧ lowPorts.cmdValid = false) ∧
    (filling.known = true ∧ filling.rspPending = false) := by decide

theorem witness_InitStartsAMessage :
    ((0x0101 : CmdWord).extractLsb' 8 8 = 0x01 ∧ (0x0101 : CmdWord).extractLsb' 0 8 ≠ 0x00) ∧ resetPorts.rst = true := by
  decide

theorem witness_ReadReturnsTheComplementAndKeepsTheRegister :
    ((0x03FF : CmdWord).extractLsb' 8 8 = 0x03 ∧ (0x03FF : CmdWord).extractLsb' 0 8 ≠ 0x00) ∧ resetPorts.rst = true := by
  decide

theorem witness_IllegalWordsAreAnsweredAndChangeNothing :
    decode 0x0400 = .illegal 0x0400 ∧
    exec .nop State.reset = .next { State.reset with rspPending := true } := ⟨by decide, rfl⟩

theorem witness_IllegalWordsInARowEachGetTheirResponse :
    ∀ w ∈ ([0x0401, 0x0301, 0xFFFF] : List CmdWord), isLegal w = false := by
  have h : ([0x0401, 0x0301, 0xFFFF] : List CmdWord).all (fun w => isLegal w = false) = true := by decide
  simpa only [List.all_eq_true, decide_eq_true_eq] using h

theorem witness_LegalCommandsNeverFail :
    ∀ w ∈ ([0x0100, 0x0261, 0x0000, 0x0300] : List CmdWord), isLegal w = true := by
  rw [← List.all_eq_true]
  decide

theorem witness_CommandsWriteOnlyRegisterAndResponse :
    ((∃ t, exec .crcInit State.reset = .next t) ∧ ∃ t, exec .crcInit (offering 0 0) = .next t) ∧
    (State.reset.crc = (holding []).crc ∧ (∃ t, exec (.crcByte 0xFF) State.reset = .next t) ∧
      ∃ t, exec (.crcByte 0xFF) (holding []) = .next t) ∧
    ∃ t, performWord 0xFFFF State.reset = .next t ∧ t.rspKind = 0b10 :=
  ⟨⟨⟨_, rfl⟩, ⟨_, rfl⟩⟩, ⟨rfl, ⟨_, rfl⟩, ⟨_, rfl⟩⟩,
    ⟨State.reset.respond .illegal (zextWord 0xFFFF), rfl, rfl⟩⟩

theorem witness_OneTableReadPerByte :
    commandRead 0xFFFFFFFF (decode 0x0231) = [0xCE] ∧ commandRead 0xFFFFFFFF (decode 0x0300) = [] := by decide

theorem witness_ChecksumIsAffine : ([0x61, 0x62] : List Byte).length = ([0x01, 0x02] : List Byte).length := by decide

theorem witness_StepRunsTheDecodedCommand :
    (offering 0 0x0231).host = .edge (offerPorts 0x0231) :: [] ∧ (offering 0 0x0231).known = true ∧
    (offering 0 0x0231).takesCommand (offerPorts 0x0231) = true ∧ (Instr.crcByte 0x31).wf = true ∧
    decode ((offering 0 0x0231).takenWord (offerPorts 0x0231)) = .instr (.crcByte 0x31) ∧
    decode ((offering 0 0x0401).takenWord (offerPorts 0x0401)) = .illegal 0x0401 := by decide

theorem witness_ResetEdgeLeavesTheResetState :
    resetPorts.rst = true ∧ (holding []).known = true ∧ (holding []).rspPending = true ∧
    lowPorts.rst = false ∧ lowPorts.rspReady = false ∧
    clockEdge lowPorts (holding []) = .next { holding [] with tick := 1 } := ⟨rfl, rfl, rfl, rfl, rfl, rfl⟩

theorem witness_ResetTakesPrecedenceOverACommand :
    ({ State.reset with host := [.edge ⟨true, true, 0x0231, false⟩] } : State).host = .edge ⟨true, true, 0x0231, false⟩ :: [] ∧
    (⟨true, true, 0x0231, false⟩ : PortIn).rst = true := by decide

theorem witness_CommandHandshake :
    (State.reset.known = true ∧ State.reset.takesCommand (offerPorts 0x0300) = true ∧
      ∀ w ∈ State.reset.offered, w = (offerPorts 0x0300).cmd) ∧
    ((holding []).known = true ∧ (offerPorts 0x0300).rst = false ∧
      (holding []).takesCommand (offerPorts 0x0300) = false) ∧
    clockEdge (offerPorts 0x0300) (holding []) = .next { holding [] with offered := [0x0300], tick := 1 } :=
  ⟨⟨rfl, by decide, fun w hw => (by cases hw)⟩, by decide, rfl⟩

theorem witness_TakenWordIsAnOfferedWord :
    State.reset.takesCommand lowPorts = false ∧ (∃ t, clockEdge lowPorts State.reset = .next t) ∧
    State.reset.takesCommand (offerPorts 0x0300) = true ∧ (∃ t, clockEdge (offerPorts 0x0300) State.reset = .next t) ∧
    ∃ t, clockEdge resetPorts { State.reset with offered := [0x0231] } = .next t :=
  ⟨by decide, ⟨_, rfl⟩, by decide, ⟨_, rfl⟩, ⟨_, rfl⟩⟩

theorem witness_ResponseHandshake :
    (State.reset.known = true ∧ State.reset.takesCommand (offerPorts 0x0300) = true) ∧
    ((holding []).known = true ∧ takePorts.rst = false ∧ takePorts.rspReady = true ∧
      (holding []).heldResponse = some ⟨.data, 0⟩) ∧
    (lowPorts.rst = false ∧ lowPorts.rspReady = false ∧ (holding []).rspPending = true) := by decide

theorem witness_ReadyEngineTakesTheNextOffer :
    (offering 0 0x0300).host = .edge (offerPorts 0x0300) :: [] ∧ (offering 0 0x0300).known = true ∧
    (offering 0 0x0300).rspPending = false ∧ (offering 0 0x0300).fillLeft = 0 ∧ (offerPorts 0x0300).rst = false ∧
    (offerPorts 0x0300).cmdValid = true := by decide

theorem witness_UntakenResponseHangsTheEngine :
    (holding [idleMove, idleMove]).known = true ∧ (holding [idleMove, idleMove]).rspPending = true ∧
    2 ≤ (holding [idleMove, idleMove]).host.length ∧
    (∀ m ∈ (holding [idleMove, idleMove]).host.take 2, m.ignoresResponse = true) ∧
    (∀ m ∈ (holding [idleMove, idleMove]).host, m.ignoresResponse = true) ∧ resetPorts.rst = true := by decide

theorem witness_FillKeepsCommandsWaiting :
    filling.known = true ∧ filling.rspPending = false ∧ 3 ≤ filling.fillLeft ∧
    (∀ m ∈ filling.host.take 3, m.noReset = true) ∧
    resetPorts.rst = true ∧ State.reset.known = true ∧ State.reset.fillLeft = 0 := by decide

theorem witness_PowerLossIsUnknownUntilReset :
    ({ State.reset with host := [.powerLoss] } : State).host = .powerLoss :: [] ∧
    unpowered.known = false ∧ lowPorts.rst = false ∧ resetPorts.rst = true := by decide

theorem witness_ReservedKindIsNeverProduced :
    performWord 0x0000 State.reset = .next { State.reset with rspPending := true } ∧
    (holding []).known = true ∧ (holding []).rspPending = true ∧ takePorts.rst = false ∧ takePorts.rspReady = true :=
  ⟨rfl, rfl, rfl, rfl, rfl⟩

theorem witness_EveryStepKeepsTheInvariant :
    (offering 0 0x0300).Inv ∧
    step (offering 0 0x0300) =
      .next { State.reset with crc := 0, rspPending := true, rspKind := 0b01, rspData := 0xFFFFFFFF, tick := 1 } :=
  ⟨fun _ => ⟨fun h => (by cases h), by decide⟩, rfl⟩

theorem witness_OnlyAnUntakenResponseStopsTheMachine :
    (holding []).Inv ∧ (holding []).known = true ∧ (holding []).rspPending = true ∧ (holding []).host = [] ∧
    step (holding []) = .fault .hang ∧ unpowered.Inv ∧ step unpowered = .refused .beforeFirstReset :=
  ⟨fun _ => ⟨fun _ => ⟨rfl, .inr (.inl ⟨rfl, rfl⟩)⟩, by decide⟩, rfl, rfl, rfl, rfl, fun h => (by cases h), rfl⟩

theorem witness_PortRunsRefineTransactionRuns :
    (offering 0 0x0300).known = true ∧ (offering 0 0x0300).rspPending = false ∧
    (∀ m ∈ (offering 0 0x0300).host.take 1, m.noReset = true) ∧
    runSteps 1 (offering 0 0x0300) =
      .next { State.reset with crc := 0, rspPending := true, rspKind := 0b01, rspData := 0xFFFFFFFF, tick := 1 } :=
  ⟨rfl, rfl, by decide, rfl⟩

/-- A run that ends with every response taken. -/
theorem witness_PortRunsRefineTransactionRuns_ended :
    ∃ t, runSteps 2 { State.reset with host := conformingHost [0x0300] } = .next t ∧ t.rspPending = false :=
  ⟨_, rfl, rfl⟩

theorem witness_ConformingHostGetsEveryResponse : State.reset.ready = true := by decide

/-- A host that waits out one edge of the table's fill, offers the second word while the first response is held, and waits
before it takes the last response. -/
def dutiful : State :=
  { State.reset with
    fillTime := 1
    fillLeft := 1
    host := [.edge (offerPorts 0x0231), .edge (offerPorts 0x0231), .edge (offerPorts 0x0300),
      .edge ⟨false, true, 0x0300, true⟩, .edge (offerPorts 0x0300), .edge lowPorts, .edge takePorts] }

theorem witness_EveryDutifulHostGetsEveryResponse :
    dutiful.known = true ∧ dutiful.rspPending = false ∧ dutiful.offered = [] ∧ keepsDuties [0x0231, 0x0300] 7 dutiful := by
  refine ⟨rfl, rfl, rfl, ?_⟩
  iterate 7
    rw [keepsDuties_succ_of_next rfl rfl rfl (fun h => by first | rfl | cases h)
      (fun h => by first | rfl | exact absurd rfl h)]
  exact ⟨rfl, rfl, rfl⟩

theorem witness_RunEndsWithTheResponseToItsLastCommand :
    State.reset.ready = true ∧
    (∃ t, runSteps 1 (driven [.edge (offerPorts 0x0300)]) = .next t ∧ t.known = true ∧ t.rspPending = true) ∧
    (State.reset.known = true ∧ observe 0 State.reset = some ⟨[], 0xFFFFFFFF⟩) ∧
    (unpowered.known = false ∧ responsesTaken 1 unpowered = []) :=
  ⟨by decide, ⟨_, rfl, rfl, rfl⟩, by decide, by decide⟩

theorem witness_PortsDeliverTheChecksumOfAnyMessage : (offering 0xDEADBEEF 0x0000).ready = true := by decide

theorem witness_IdleResponseValuesAreNeverObserved :
    let s := offering 0 0x0300
    let t := { s with rspData := 0x12345678, tick := 7 }
    s.host = .edge (offerPorts 0x0300) :: [] ∧ t.host = .edge (offerPorts 0x0300) :: [] ∧ s.agrees t ∧
    s.fillTime = t.fillTime ∧ s.offered = t.offered ∧ ∀ w ∈ s.offered, w = (offerPorts 0x0300).cmd :=
  ⟨rfl, rfl, ⟨rfl, rfl, fun h => (by cases h), rfl, rfl⟩, rfl, rfl, fun w hw => (by cases hw)⟩

/-- Two engines: a reset one, and one that hangs. -/
def twoEngines : System 2 := #v[State.reset, { holding [] with engine := 1 }]

theorem witness_StepsOfDifferentEnginesCommute :
    enginesOk 2 = true ∧ (0 : Fin 2) ≠ 1 ∧ (∃ t, step twoEngines[(0 : Fin 2)] = .next t) ∧
    ∀ t, step twoEngines[(1 : Fin 2)] ≠ .next t := by
  refine ⟨rfl, by decide, ⟨_, rfl⟩, fun t h => ?_⟩
  have hf : step twoEngines[(1 : Fin 2)] = .fault .hang := rfl
  rw [hf] at h
  cases h

theorem witness_EachEngineRunsAsIfAlone :
    enginesOk 2 = true ∧ ([0, 1, 0] : List (Fin 2)).count 0 = 2 ∧ (∃ t, runSteps 2 twoEngines[(0 : Fin 2)] = .next t) ∧
    ∀ t, step twoEngines[(1 : Fin 2)] ≠ .next t :=
  ⟨rfl, rfl, ⟨_, rfl⟩, witness_StepsOfDifferentEnginesCommute.2.2.2⟩

theorem witness_PseudoInstructionsExpandInOrder :
    ([0, 255] : List Nat) ≠ [] ∧ (∀ n ∈ ([0, 255] : List Nat), n < 256) ∧
    (∀ c ∈ ['a', 'b'], c.toNat < 128) ∧ (256 ≤ 256) ∧ ∃ n ∈ ([0x61, 256] : List Nat), 256 ≤ n := by
  have h : ['a', 'b'].all (fun c => c.toNat < 128) = true := by decide
  exact ⟨by decide, by decide, by simpa only [List.all_eq_true, decide_eq_true_eq] using h, by decide,
    ⟨256, by decide, by decide⟩⟩

end Sys2Proof.Tests
end

section
/-! The table (10_state.md R19 to R22): the step of rule R19 is linear over `xor`, so every entry is, and the spec's listing
is the rule evaluated at each index in turn. -/

namespace Sys2Proof.Machine

/-! ## The step of the rule -/

/-- The rule's test `c & 1` (10_state.md R19), as the bit it reads. -/
theorem and_one_eq_one_iff_getLsbD_zero (c : Word32) : c &&& 1 = 1 ↔ c.getLsbD 0 = true := by
  have masked : c &&& 1 = (BitVec.ofBool (c.getLsbD 0)).setWidth 32 := BitVec.and_one_eq_setWidth_ofBool_getLsbD
  rw [masked]
  cases c.getLsbD 0 <;> decide

/-- The step with its branch in the added constant: the word shifted, and `poly` added exactly when bit 0 is shifted out. -/
theorem bitStep_eq_shift_xor (c : Word32) :
    bitStep c = (c >>> 1) ^^^ (if c.getLsbD 0 then Config.poly else 0) := by
  simp only [bitStep, and_one_eq_one_iff_getLsbD_zero]
  split
  case isTrue => exact BitVec.xor_comm ..
  case isFalse => exact BitVec.xor_zero.symm

/-- The constant the step adds is linear in the bit shifted out: two odd words add `poly` twice, which is nothing. -/
theorem ite_xor_eq_xor_ite (p q : Bool) (v : Word32) :
    (if p ^^ q then v else 0) = (if p then v else 0) ^^^ (if q then v else 0) := by
  cases p <;> cases q <;> simp

theorem bitStep_xor (a b : Word32) : bitStep (a ^^^ b) = bitStep a ^^^ bitStep b := by
  rw [bitStep_eq_shift_xor, bitStep_eq_shift_xor a, bitStep_eq_shift_xor b, BitVec.getLsbD_xor, ite_xor_eq_xor_ite,
    BitVec.ushiftRight_xor_distrib]
  ac_rfl

theorem bitSteps_xor (n : Nat) (a b : Word32) : bitSteps n (a ^^^ b) = bitSteps n a ^^^ bitSteps n b := by
  induction n generalizing a b with
  | zero => rfl
  | succ n ih => rw [bitSteps, bitStep_xor, ih, ← bitSteps, ← bitSteps]

/-! ## The entries -/

/-- The table read is the rule, with no stored table between (10_state.md R21, 20_memory.md R33). -/
theorem memReadT_eq_tableEntry (i : Byte) : memReadT i = tableEntry i := rfl

theorem tableEntry_xor (i j : Byte) : tableEntry (i ^^^ j) = tableEntry i ^^^ tableEntry j := by
  rw [tableEntry, BitVec.setWidth_xor, bitSteps_xor, ← tableEntry, ← tableEntry]

/-- Settles O7: the entries by evaluating the rule at three indices, linearity from that of the step. -/
theorem tableIsLinear : Obligations.TableIsLinear := by
  unfold Obligations.TableIsLinear
  have entry00 : memReadT 0x00 = 0x00000000 := by decide
  have entry80 : memReadT 0x80 = 0xEDB88320 := by decide
  have entryFF : memReadT 0xFF = 0x2D02EF8D := by decide
  have top_byte_varies : (memReadT 0x00).extractLsb' 24 8 ≠ (memReadT 0x80).extractLsb' 24 8 := by
    rw [entry00, entry80]
    decide
  exact ⟨entry00, entry80, entryFF, tableEntry_xor, 0x00, 0x80, top_byte_varies⟩

/-! ## The listing -/

/-- The rule evaluated at `n` consecutive indices. -/
def tableEntriesFrom (start n : Nat) : List Word32 :=
  (List.range' start n).map fun k => tableEntry (BitVec.ofNat 8 k)

@[simp] theorem length_tableEntriesFrom (start n : Nat) : (tableEntriesFrom start n).length = n := by
  simp [tableEntriesFrom]

theorem tableEntriesFrom_append (start m n : Nat) :
    tableEntriesFrom start m ++ tableEntriesFrom (start + m) n = tableEntriesFrom start (m + n) := by
  simp only [tableEntriesFrom, ← List.map_append, List.range'_append_1]

theorem getElem?_tableEntriesFrom_zero (i : Byte) : (tableEntriesFrom 0 256)[i.toNat]? = some (tableEntry i) := by
  simp [tableEntriesFrom, i.isLt]

theorem tableListing0_eq_rule : tableListing0 = tableEntriesFrom 0 64 := by decide
theorem tableListing1_eq_rule : tableListing1 = tableEntriesFrom 64 64 := by decide
theorem tableListing2_eq_rule : tableListing2 = tableEntriesFrom 128 64 := by decide
theorem tableListing3_eq_rule : tableListing3 = tableEntriesFrom 192 64 := by decide

/-- The constants of R21 proved equal to the rule R19, all of them at once. -/
theorem tableListing_eq_rule : tableListing = tableEntriesFrom 0 256 := by
  rw [tableListing, tableListing0_eq_rule, tableListing1_eq_rule, tableListing2_eq_rule, tableListing3_eq_rule,
    tableEntriesFrom_append 0, tableEntriesFrom_append 0, tableEntriesFrom_append 0]

/-- Settles O6, by comparing the whole listing with the rule and reading both at the index. -/
theorem tableReadsGiveTheListing : Obligations.TableReadsGiveTheListing := by
  unfold Obligations.TableReadsGiveTheListing
  rw [tableListing_eq_rule]
  exact ⟨length_tableEntriesFrom 0 256, getElem?_tableEntriesFrom_zero⟩

/-! ## The reset state -/

/-- Settles O29: the two fields are those of `State.reset`, and the table is a constant that no state changes. -/
theorem resetStateHoldsTheStatedValues : Obligations.ResetStateHoldsTheStatedValues :=
  ⟨rfl, rfl, memReadT_eq_tableEntry⟩

end Sys2Proof.Machine
end

section
/-! The encoding (30_encoding.md R49 to R54): what the two fields of a word are, what the decoder answers by the fields, and how
many of the 65,536 words have fields of a given kind. -/

namespace Sys2Proof

/-! ## The two fields of a word -/

/-- Format `C` is `op` beside `data` (30_encoding.md R49). -/
theorem formatC_eq_append (op data : Byte) : formatC op data = op ++ data := by
  rw [BitVec.append_def, BitVec.shiftLeftZeroExtend_eq, BitVec.setWidth'_eq]
  rfl

@[simp] theorem opField_formatC (op data : Byte) : opField (formatC op data) = op := by
  rw [formatC_eq_append, opField, BitVec.extractLsb'_append_eq_left]

@[simp] theorem dataField_formatC (op data : Byte) : dataField (formatC op data) = data := by
  rw [formatC_eq_append, dataField, BitVec.extractLsb'_append_eq_right]

theorem formatC_opField_dataField (w : CmdWord) : formatC (opField w) (dataField w) = w := by
  rw [formatC_eq_append]
  exact BitVec.extractLsb'_append_extractLsb'

/-- A word is its two fields. -/
theorem eq_formatC_iff (w : CmdWord) (op data : Byte) :
    w = formatC op data ↔ opField w = op ∧ dataField w = data := by
  constructor
  · rintro rfl
    exact ⟨opField_formatC op data, dataField_formatC op data⟩
  · rintro ⟨rfl, rfl⟩
    exact (formatC_opField_dataField w).symm

theorem toNat_opField (w : CmdWord) : (opField w).toNat = w.toNat / 256 := by
  rw [opField, BitVec.extractLsb'_toNat, Nat.shiftRight_eq_div_pow]
  omega

theorem toNat_dataField (w : CmdWord) : (dataField w).toNat = w.toNat % 256 := by
  rw [dataField, BitVec.extractLsb'_toNat, Nat.shiftRight_zero]

theorem opField_ofNat_mul_add (op : Nat) {data : Nat} (h : data < 256) :
    opField (BitVec.ofNat 16 (op * 256 + data)) = BitVec.ofNat 8 op := by
  apply BitVec.eq_of_toNat_eq
  rw [toNat_opField, BitVec.toNat_ofNat, BitVec.toNat_ofNat]
  omega

theorem dataField_ofNat_mul_add (op data : Nat) : dataField (BitVec.ofNat 16 (op * 256 + data)) = BitVec.ofNat 8 data := by
  apply BitVec.eq_of_toNat_eq
  rw [toNat_dataField, BitVec.toNat_ofNat, BitVec.toNat_ofNat]
  omega

/-! ## Commands and their words -/

theorem decode_encode (i : Instr) : decode (encode i) = .instr i := by
  cases i with
  | nop => rfl
  | crcInit => rfl
  | crcByte b => simp [encode, decode]
  | crcRead => rfl

theorem encode_eq_of_decode {w : CmdWord} {i : Instr} (h : decode w = .instr i) : encode i = w := by
  unfold decode at h
  split_ifs at h with hnop hinit hbyte hread <;> cases h
  · exact ((eq_formatC_iff ..).2 hnop).symm
  · exact ((eq_formatC_iff ..).2 hinit).symm
  · exact ((eq_formatC_iff ..).2 ⟨hbyte, rfl⟩).symm
  · exact ((eq_formatC_iff ..).2 hread).symm

theorem decode_eq_instr_iff (w : CmdWord) (i : Instr) : decode w = .instr i ↔ w = encode i := by
  constructor
  · exact fun h => (encode_eq_of_decode h).symm
  · rintro rfl
    exact decode_encode i

theorem isLegal_iff_exists_decode (w : CmdWord) : isLegal w = true ↔ ∃ i, decode w = .instr i := by
  unfold isLegal
  cases decode w <;> simp

theorem decode_eq_illegal_iff_not_isLegal (w : CmdWord) : decode w = .illegal w ↔ isLegal w = false := by
  unfold isLegal
  cases h : decode w with
  | instr i => simp
  | illegal v => simp [Machine.decode_illegal_eq h]

theorem decode_eq_crcByte_iff (w : CmdWord) (b : Byte) :
    decode w = .instr (.crcByte b) ↔ opField w = 0x02 ∧ dataField w = b := by
  rw [decode_eq_instr_iff, encode, eq_formatC_iff]

/-- The words of BYTE are those of its opcode, whatever their data (30_encoding.md R52). -/
theorem exists_decode_eq_crcByte_iff (w : CmdWord) : (∃ b, decode w = .instr (.crcByte b)) ↔ opField w = 0x02 := by
  simp [decode_eq_crcByte_iff]

/-! ## The opcode map -/

theorem and_fullMask (w : CmdWord) : w &&& 0xFFFF = w := BitVec.and_allOnes

/-- Under the mask of BYTE's row a word keeps its opcode alone. -/
theorem and_opcodeMask (w : CmdWord) : w &&& 0xFF00 = formatC (opField w) 0x00 := by
  have mask_eq : (0xFF00 : CmdWord) = BitVec.allOnes 8 ++ 0#8 := rfl
  calc w &&& 0xFF00
      = formatC (opField w) (dataField w) &&& 0xFF00 := by rw [formatC_opField_dataField]
    _ = opField w ++ 0#8 := by
      rw [formatC_eq_append, mask_eq, BitVec.and_append, BitVec.and_allOnes, BitVec.and_zero]
    _ = formatC (opField w) 0x00 := (formatC_eq_append ..).symm

/-- A row with the full mask selects the one word it holds. -/
theorem decode_eq_instr_iff_fullMask (w : CmdWord) (i : Instr) : decode w = .instr i ↔ w &&& 0xFFFF = encode i := by
  rw [decode_eq_instr_iff, and_fullMask]

theorem decode_eq_nop_iff_match (w : CmdWord) : decode w = .instr .nop ↔ w &&& 0xFFFF = 0x0000 :=
  decode_eq_instr_iff_fullMask w .nop

theorem decode_eq_crcInit_iff_match (w : CmdWord) : decode w = .instr .crcInit ↔ w &&& 0xFFFF = 0x0100 :=
  decode_eq_instr_iff_fullMask w .crcInit

theorem decode_eq_crcRead_iff_match (w : CmdWord) : decode w = .instr .crcRead ↔ w &&& 0xFFFF = 0x0300 :=
  decode_eq_instr_iff_fullMask w .crcRead

theorem exists_decode_eq_crcByte_iff_match (w : CmdWord) :
    (∃ b, decode w = .instr (.crcByte b)) ↔ w &&& 0xFF00 = 0x0200 := by
  have match_eq : (0x0200 : CmdWord) = formatC 0x02 0x00 := rfl
  rw [exists_decode_eq_crcByte_iff, and_opcodeMask, match_eq, eq_formatC_iff, opField_formatC, dataField_formatC]
  exact (and_iff_left rfl).symm

/-- A word that spells a command selects one row of the map, and an illegal word none (30_encoding.md R52). -/
theorem countP_selects_opcodeMap (w : CmdWord) :
    opcodeMap.countP (fun r => r.selects w) = if isLegal w then 1 else 0 := by
  simp only [opcodeMap, List.countP_cons, List.countP_nil, OpcodeRow.selects, decide_eq_true_eq,
    ← decode_eq_nop_iff_match, ← decode_eq_crcInit_iff_match, ← decode_eq_crcRead_iff_match,
    ← exists_decode_eq_crcByte_iff_match]
  cases hlegal : isLegal w with
  | true =>
    obtain ⟨i, hi⟩ := (isLegal_iff_exists_decode w).1 hlegal
    cases i <;> simp [hi]
  | false => simp [(decode_eq_illegal_iff_not_isLegal w).2 hlegal]

/-- Settles O3: each row's test is the decoder's answer, and a word spells one command at most. -/
theorem decoderFollowsTheOpcodeMap : Obligations.DecoderFollowsTheOpcodeMap := by
  unfold Obligations.DecoderFollowsTheOpcodeMap
  intro w
  have byte_row : decode w = .instr (.crcByte (dataField w)) ↔ w &&& 0xFF00 = 0x0200 := by
    rw [← exists_decode_eq_crcByte_iff_match, exists_decode_eq_crcByte_iff, decode_eq_crcByte_iff]
    exact and_iff_left rfl
  have byte_data (b : Byte) (h : decode w = .instr (.crcByte b)) : b = dataField w :=
    ((decode_eq_crcByte_iff w b).1 h).2.symm
  refine ⟨decode_eq_nop_iff_match w, decode_eq_crcInit_iff_match w, byte_row, byte_data,
    decode_eq_crcRead_iff_match w, ?_, ?_⟩
  · rw [countP_selects_opcodeMap]
    split <;> decide
  · rw [countP_selects_opcodeMap, decode_eq_illegal_iff_not_isLegal]
    simp

/-! ## The illegal words by their fields -/

/-- The opcodes the map leaves out (30_encoding.md R53). -/
def isReserved (op : Byte) : Bool := 0x04 ≤ op.toNat

/-- The opcodes whose data must be zero (30_encoding.md R54). -/
def takesNoData (op : Byte) : Bool := op = 0x00 ∨ op = 0x01 ∨ op = 0x03

theorem isReserved_iff (op : Byte) : isReserved op = true ↔ 0x04 ≤ op.toNat := decide_eq_true_iff

theorem takesNoData_iff (op : Byte) : takesNoData op = true ↔ op = 0x00 ∨ op = 0x01 ∨ op = 0x03 := decide_eq_true_iff

/-- The reserved opcodes are those of no row of the map. -/
theorem isReserved_iff_no_row (op : Byte) : isReserved op = true ↔ takesNoData op = false ∧ op ≠ 0x02 := by
  rw [← Bool.not_eq_true, takesNoData_iff, isReserved_iff]
  bv_omega

theorem ne_byte_of_takesNoData {op : Byte} (h : takesNoData op = true) : op ≠ 0x02 := by
  rintro rfl
  exact absurd h (by decide)

/-- A word is legal under BYTE with any data, and with zero data under an opcode that takes none (30_encoding.md R54). -/
theorem isLegal_eq_fields (w : CmdWord) :
    isLegal w = (takesNoData (opField w) && decide (dataField w = 0x00) || decide (opField w = 0x02)) := by
  rw [Bool.eq_iff_iff, isLegal_iff_exists_decode]
  simp only [decode_eq_instr_iff, Bool.or_eq_true, Bool.and_eq_true, decide_eq_true_eq]
  constructor
  · rintro ⟨i, rfl⟩
    cases i <;> simp [encode, takesNoData]
  · rintro (⟨hop, hdata⟩ | hbyte)
    · rcases (takesNoData_iff _).1 hop with hnop | hinit | hread
      · exact ⟨.nop, (eq_formatC_iff ..).2 ⟨hnop, hdata⟩⟩
      · exact ⟨.crcInit, (eq_formatC_iff ..).2 ⟨hinit, hdata⟩⟩
      · exact ⟨.crcRead, (eq_formatC_iff ..).2 ⟨hread, hdata⟩⟩
    · exact ⟨.crcByte (dataField w), (eq_formatC_iff ..).2 ⟨hbyte, rfl⟩⟩

/-- The two grounds on which a word is illegal (30_encoding.md R53, R54). -/
theorem decode_eq_illegal_iff (w : CmdWord) :
    decode w = .illegal w ↔
      isReserved (opField w) = true ∨ takesNoData (opField w) = true ∧ dataField w ≠ 0x00 := by
  rw [decode_eq_illegal_iff_not_isLegal, isLegal_eq_fields, isReserved_iff_no_row]
  cases htakes : takesNoData (opField w) with
  | false => simp
  | true =>
    have not_byte := ne_byte_of_takesNoData htakes
    grind

/-- The legal words by their values (30_encoding.md R54). -/
theorem isLegal_iff_value (w : CmdWord) :
    isLegal w = true ↔ w = 0x0000 ∨ w = 0x0100 ∨ w = 0x0300 ∨ (0x0200 ≤ w.toNat ∧ w.toNat ≤ 0x02FF) := by
  have byte_range : opField w = 0x02 ↔ 0x0200 ≤ w.toNat ∧ w.toNat ≤ 0x02FF := by
    rw [← BitVec.toNat_inj, toNat_opField]
    exact Nat.div_eq_iff (by decide)
  have nop_word : w = 0x0000 ↔ opField w = 0x00 ∧ dataField w = 0x00 := eq_formatC_iff w 0x00 0x00
  have init_word : w = 0x0100 ↔ opField w = 0x01 ∧ dataField w = 0x00 := eq_formatC_iff w 0x01 0x00
  have read_word : w = 0x0300 ↔ opField w = 0x03 ∧ dataField w = 0x00 := eq_formatC_iff w 0x03 0x00
  rw [isLegal_eq_fields, nop_word, init_word, read_word, ← byte_range]
  simp only [Bool.or_eq_true, Bool.and_eq_true, decide_eq_true_eq, takesNoData_iff, or_and_right, or_assoc]

end Sys2Proof

namespace Sys2Proof.Machine

/-- The engine's answer to an illegal word: the response, and no other field changes (60_exceptions.md R83). -/
theorem performWord_of_illegal {w : CmdWord} (h : decode w = .illegal w) (s : State) :
    performWord w s = .next { s with rspPending := true, rspKind := 0b10, rspData := w.setWidth 32 } := by
  rw [performWord, h]
  rfl

end Sys2Proof.Machine

namespace Sys2Proof

/-! ## Counting words -/

/-- How many of the 65,536 words meet `P`. -/
def wordCount (P : CmdWord → Bool) : Nat := (List.range 65536).countP fun n => P (BitVec.ofNat 16 n)

/-- How many of the 256 bytes meet `Q`. -/
def byteCount (Q : Byte → Bool) : Nat := (List.range 256).countP fun n => Q (BitVec.ofNat 8 n)

/-- The 256 bytes. -/
def allBytes : List Byte := (List.range 256).map (BitVec.ofNat 8)

theorem mem_allBytes (b : Byte) : b ∈ allBytes :=
  List.mem_map.2 ⟨b.toNat, List.mem_range.2 b.isLt, by simp⟩

theorem nodup_allBytes : allBytes.Nodup := by
  apply List.Nodup.map_on _ List.nodup_range
  intro m hm n hn heq
  have toNat_eq := congrArg BitVec.toNat heq
  rwa [BitVec.toNat_ofNat, BitVec.toNat_ofNat, Nat.mod_eq_of_lt (List.mem_range.1 hm),
    Nat.mod_eq_of_lt (List.mem_range.1 hn)] at toNat_eq

theorem byteCount_eq_countP (Q : Byte → Bool) : byteCount Q = allBytes.countP Q := List.countP_map.symm

theorem byteCount_true : byteCount (fun _ => true) = 256 := by
  rw [byteCount, List.countP_true, List.length_range]

/-- The bytes of a list without repetitions are as many as the list is long. -/
theorem byteCount_mem {bs : List Byte} (h : bs.Nodup) : byteCount (fun b => decide (b ∈ bs)) = bs.length := by
  rw [byteCount_eq_countP, List.countP_eq_length_filter]
  apply List.Perm.length_eq
  rw [List.perm_ext_iff_of_nodup (nodup_allBytes.filter _) h]
  simp [mem_allBytes]

theorem byteCount_not_mem {bs : List Byte} (h : bs.Nodup) :
    byteCount (fun b => decide (b ∉ bs)) = 256 - bs.length := by
  have total := List.length_eq_countP_add_countP (fun b => decide (b ∈ bs)) (l := allBytes)
  have length_allBytes : allBytes.length = 256 := by rw [allBytes, List.length_map, List.length_range]
  simp only [decide_eq_true_eq] at total
  rw [length_allBytes, ← byteCount_eq_countP, ← byteCount_eq_countP, byteCount_mem h] at total
  omega

theorem byteCount_eq_self (b : Byte) : byteCount (fun data => decide (data = b)) = 1 := by
  simpa using byteCount_mem (List.nodup_singleton b)

/-- The words below `m * 256` are those of the first `m` opcodes, each with every data byte. -/
theorem countP_range_mul_fields (Q R : Byte → Bool) (m : Nat) :
    (List.range (m * 256)).countP (fun n => Q (opField (BitVec.ofNat 16 n)) && R (dataField (BitVec.ofNat 16 n))) =
      (List.range m).countP (fun op => Q (BitVec.ofNat 8 op)) * byteCount R := by
  induction m with
  | zero => simp
  | succ m ih =>
    have last_opcode : (List.range 256).countP
        ((fun n => Q (opField (BitVec.ofNat 16 n)) && R (dataField (BitVec.ofNat 16 n))) ∘ (m * 256 + ·)) =
        (List.range 256).countP (fun data => Q (BitVec.ofNat 8 m) && R (BitVec.ofNat 8 data)) := by
      apply List.countP_congr
      intro data hdata
      simp [opField_ofNat_mul_add m (List.mem_range.1 hdata), dataField_ofNat_mul_add]
    rw [Nat.succ_mul, List.range_add, List.countP_append, ih, List.countP_map, last_opcode, List.range_succ (n := m),
      List.countP_append, Nat.add_mul]
    cases h : Q (BitVec.ofNat 8 m) <;> simp [h, byteCount]

/-- Words whose opcode meets one condition and whose data meets another are as many as their pairs. -/
theorem wordCount_fields (Q R : Byte → Bool) :
    wordCount (fun w => Q (opField w) && R (dataField w)) = byteCount Q * byteCount R :=
  countP_range_mul_fields Q R 256

theorem wordCount_or_of_disjoint {P Q : CmdWord → Bool} (h : ∀ w, P w = true → Q w = false) :
    wordCount (fun w => P w || Q w) = wordCount P + wordCount Q := by
  unfold wordCount
  generalize List.range 65536 = words
  induction words with
  | nil => rfl
  | cons n words ih =>
    rw [List.countP_cons, List.countP_cons, List.countP_cons, ih]
    cases hP : P (BitVec.ofNat 16 n) with
    | false => simp [hP, Nat.add_assoc]
    | true => simp [hP, h _ hP, Nat.add_right_comm]

theorem wordCount_opField (Q : Byte → Bool) : wordCount (fun w => Q (opField w)) = byteCount Q * 256 := by
  simpa only [Bool.and_true, byteCount_true] using wordCount_fields Q fun _ => true

/-- 252 opcodes times 256 data values (30_encoding.md R53). -/
theorem wordCount_isReserved : wordCount (fun w => isReserved (opField w)) = 64512 := by
  have reserved_eq : isReserved = fun op => decide (op ∉ ([0x00, 0x01, 0x02, 0x03] : List Byte)) := by
    funext op
    rw [Bool.eq_iff_iff, isReserved_iff]
    simp only [decide_eq_true_eq, List.mem_cons, List.not_mem_nil, or_false]
    bv_omega
  rw [wordCount_opField, reserved_eq, byteCount_not_mem (by decide)]
  rfl

theorem byteCount_takesNoData : byteCount takesNoData = 3 := by
  have takes_eq : takesNoData = fun op => decide (op ∈ ([0x00, 0x01, 0x03] : List Byte)) := by
    funext op
    rw [Bool.eq_iff_iff, takesNoData_iff]
    simp
  rw [takes_eq, byteCount_mem (by decide)]
  rfl

/-- 3 opcodes times 255 data values (30_encoding.md R54). -/
theorem wordCount_nonzeroData : wordCount (fun w => takesNoData (opField w) && decide (dataField w ≠ 0x00)) = 765 := by
  have nonzero_data : byteCount (fun data => decide (data ≠ 0x00)) = 255 := by
    simpa using byteCount_not_mem (List.nodup_singleton (0x00 : Byte))
  rw [wordCount_fields takesNoData (fun data => decide (data ≠ 0x00)), byteCount_takesNoData, nonzero_data]

/-- 256 words of BYTE, and one of each of the other three commands (30_encoding.md R54). -/
theorem wordCount_isLegal : wordCount isLegal = 259 := by
  have disjoint (w : CmdWord) (h : (takesNoData (opField w) && decide (dataField w = 0x00)) = true) :
      decide (opField w = 0x02) = false :=
    decide_eq_false (ne_byte_of_takesNoData (Bool.and_elim_left h))
  rw [funext isLegal_eq_fields, wordCount_or_of_disjoint disjoint, wordCount_opField (fun op => decide (op = 0x02)),
    wordCount_fields takesNoData (fun data => decide (data = 0x00)), byteCount_takesNoData, byteCount_eq_self,
    byteCount_eq_self]

/-! ## The reserved words and the legal words -/

open Machine

/-- Settles O4: a reserved opcode is one ground for an illegal word, and 252 opcodes are reserved. -/
theorem reservedOpcodesAreIllegal : Obligations.ReservedOpcodesAreIllegal := by
  unfold Obligations.ReservedOpcodesAreIllegal
  refine ⟨fun w hop => ?_, wordCount_isReserved⟩
  have illegal : decode w = .illegal w := (decode_eq_illegal_iff w).2 (.inl ((isReserved_iff _).2 hop))
  exact ⟨illegal, performWord_of_illegal illegal⟩

/-- Settles O5: nonzero data is the other ground, and the legal words are read and counted by their fields. -/
theorem legalWordsAreExactly259 : Obligations.LegalWordsAreExactly259 := by
  unfold Obligations.LegalWordsAreExactly259
  refine ⟨fun w hop hdata => ?_, isLegal_iff_value, ?_, wordCount_isLegal⟩
  · have illegal : decode w = .illegal w := (decode_eq_illegal_iff w).2 (.inr ⟨(takesNoData_iff _).2 hop, hdata⟩)
    exact ⟨illegal, performWord_of_illegal illegal⟩
  · simp only [Bool.decide_and]
    exact wordCount_nonzeroData

end Sys2Proof
end

section
/-! The commands (40_crc_commands.md R64 to R70): first what each command, a word performed and a sequence of words do, once and by
equations; then the rules command by command. -/

namespace Sys2Proof.Machine

/-! ## One command -/

@[simp] theorem State.setCrc_self (s : State) : s.setCrc s.crc = s := rfl

@[simp] theorem exec_nop (s : State) : exec .nop s = .next (s.respond .ack 0x00000000) := rfl

@[simp] theorem exec_crcInit (s : State) :
    exec .crcInit s = .next ((s.setCrc Config.init).respond .ack 0x00000000) := rfl

@[simp] theorem exec_crcByte (b : Byte) (s : State) :
    exec (.crcByte b) s = .next ((s.setCrc (updateCrc s.crc b)).respond .ack 0x00000000) := rfl

@[simp] theorem exec_crcRead (s : State) : exec .crcRead s = .next (s.respond .data (finalXor s.crc)) := rfl

/-- The four meanings on the state are the four cases of `Step` on the register, and write nothing else. -/
theorem exec_eq_txCommand (i : Instr) (s : State) :
    exec i s = .next ((s.setCrc (txCommand s.crc (.instr i)).1).respond
      (txCommand s.crc (.instr i)).2.kind (txCommand s.crc (.instr i)).2.data) := by
  cases i with
  | nop => rfl
  | crcInit => rfl
  | crcByte b => rfl
  | crcRead => rfl

/-- A word performed writes the register and the response of `Step`, and nothing else (40_crc_commands.md R64). -/
theorem performWord_eq_txStep (w : CmdWord) (s : State) :
    performWord w s =
      .next ((s.setCrc (txStep s.crc w).1).respond (txStep s.crc w).2.kind (txStep s.crc w).2.data) := by
  rcases performWord_cases w s with ⟨i, hdecode, hperform⟩ | ⟨hdecode, hperform⟩
  · rw [hperform, exec_eq_txCommand, txStep, hdecode]
  · rw [hperform, txStep, hdecode]
    rfl

/-! ## One word of the transaction level -/

theorem txStep_nop (c : Word32) : txStep c 0x0000 = (c, ⟨.ack, 0x00000000⟩) := rfl

theorem txStep_crcInit (c : Word32) : txStep c 0x0100 = (Config.init, ⟨.ack, 0x00000000⟩) := rfl

theorem txStep_crcRead (c : Word32) : txStep c 0x0300 = (c, ⟨.data, finalXor c⟩) := rfl

@[simp] theorem txStep_encode_crcByte (c : Word32) (b : Byte) :
    txStep c (encode (.crcByte b)) = (updateCrc c b, ⟨.ack, 0x00000000⟩) := by
  rw [txStep, decode_encode]
  rfl

/-- NOP, READ and illegal words keep the register (40_crc_commands.md R70). -/
theorem txStep_fst_eq_self {w : CmdWord}
    (h : decode w = .instr .nop ∨ decode w = .instr .crcRead ∨ decode w = .illegal w) (c : Word32) :
    (txStep c w).1 = c := by
  rcases h with hnop | hread | hillegal
  · rw [txStep, hnop, txCommand]
  · rw [txStep, hread, txCommand]
  · rw [txStep, hillegal, txCommand]

theorem RspKind.code_eq_illegal_iff (k : RspKind) : k.code = 0b10 ↔ k = .illegal := by
  cases k <;> decide

/-- Only an illegal word is answered with the kind ILLEGAL (30_encoding.md R56). -/
theorem decode_eq_illegal_of_txStep_kind {c : Word32} {w : CmdWord} (h : (txStep c w).2.kind = .illegal) :
    decode w = .illegal w := by
  rw [txStep] at h
  cases hdecode : decode w with
  | instr i =>
    rw [hdecode] at h
    cases i <;> cases h
  | illegal v => rw [decode_illegal_eq hdecode]

/-! ## A sequence of words -/

@[simp] theorem txRun_nil (c : Word32) : txRun c [] = (c, []) := rfl

@[simp] theorem txRun_cons (c : Word32) (w : CmdWord) (ws : List CmdWord) :
    txRun c (w :: ws) = ((txRun (txStep c w).1 ws).1, (txStep c w).2 :: (txRun (txStep c w).1 ws).2) := rfl

theorem txRun_append (c : Word32) (a b : List CmdWord) :
    txRun c (a ++ b) = ((txRun (txRun c a).1 b).1, (txRun c a).2 ++ (txRun (txRun c a).1 b).2) := by
  induction a generalizing c with
  | nil => rfl
  | cons w a ih => simp [ih]

@[simp] theorem length_txRun (c : Word32) (ws : List CmdWord) : (txRun c ws).2.length = ws.length := by
  induction ws generalizing c with
  | nil => rfl
  | cons w ws ih => simp [ih]

theorem rawCrc_append (r : Word32) (a b : List Byte) : rawCrc r (a ++ b) = rawCrc (rawCrc r a) b := by
  induction a generalizing r with
  | nil => rfl
  | cons x a ih => exact ih (updateCrc r x)

/-- The BYTE commands of a message leave the register of `Raw`, and each is acknowledged (41_crc32_function.md R71). -/
theorem txRun_bytes (c : Word32) (d : List Byte) :
    txRun c (d.map fun x => encode (.crcByte x)) =
      (rawCrc c d, List.replicate d.length ⟨.ack, 0x00000000⟩) := by
  induction d generalizing c with
  | nil => rfl
  | cons x d ih => simp [ih, rawCrc, List.replicate_succ]

@[simp] theorem finalXor_init : finalXor Config.init = 0x00000000 := rfl

/-! ## The edges around a command -/

theorem clockEdge_of_rst {p : PortIn} (h : p.rst = true) (s : State) : clockEdge p s = .next (s.resetEdge p) := by
  simp [clockEdge, h]

/-- Where nothing is offered, and no response held, an edge is one of the table's fill or issues nothing
(70_reset_and_hazards.md R103, R104). -/
theorem clockEdge_of_idle {s : State} {p : PortIn} (hknown : s.known = true) (hidle : s.rspPending = false)
    (hrst : p.rst = false) (hvalid : p.cmdValid = false) :
    (s.fillLeft ≠ 0 ∧ clockEdge p s = .next (s.fillEdge p)) ∨
    (s.fillLeft = 0 ∧ clockEdge p s = .next (s.quietEdge p)) := by
  simpa [hknown, hidle, hrst, hvalid] using clockEdge_cases p s

/-! ## What every command keeps to -/

/-- Settles O15: a word performed is `Step`'s pair written to the state, and `Step` is its cases. -/
theorem performedWordIsTheTransactionStep : Obligations.PerformedWordIsTheTransactionStep := by
  unfold Obligations.PerformedWordIsTheTransactionStep
  refine ⟨performWord_eq_txStep, fun c w => ?_⟩
  rw [txStep]
  cases decode w with
  | illegal v => rfl
  | instr i => cases i <;> rfl

/-- Settles O16: the frame is that of a register write and a response; the rest is read off `Step` and the two meanings. -/
theorem commandsWriteOnlyRegisterAndResponse : Obligations.CommandsWriteOnlyRegisterAndResponse := by
  unfold Obligations.CommandsWriteOnlyRegisterAndResponse
  refine ⟨fun w s => ?frame, fun s s' t t' ht ht' => ?init, fun b s s' t t' hcrc ht ht' => ?byte, fun w s t ht hkind => ?kind⟩
  case frame =>
    exact ⟨_, performWord_eq_txStep w s, rfl, rfl, rfl, rfl, rfl, rfl, rfl, fun keeps => txStep_fst_eq_self keeps s.crc⟩
  case init =>
    rw [exec_crcInit] at ht ht'
    cases ht
    cases ht'
    rfl
  case byte =>
    rw [exec_crcByte] at ht ht'
    cases ht
    cases ht'
    simp [hcrc]
  case kind =>
    rw [performWord_eq_txStep] at ht
    cases ht
    exact decode_eq_illegal_of_txStep_kind ((RspKind.code_eq_illegal_iff _).1 hkind)

/-! ## NOP -/

/-- A NOP between two parts of a sequence adds its ACK between their responses, and nothing else (40_crc_commands.md R68). -/
theorem txRun_append_nop (c : Word32) (a b : List CmdWord) :
    txRun c (a ++ 0x0000 :: b) =
      ((txRun c (a ++ b)).1, (txRun c a).2 ++ ⟨.ack, 0x00000000⟩ :: (txRun (txRun c a).1 b).2) := by
  simp only [txRun_append, txRun_cons, txStep_nop]

/-- Settles O9: the NOP's one ACK stands at its own place among the responses, and an idle port has an edge but no command. -/
theorem nopAcknowledgesAndChangesNothing : Obligations.NopAcknowledgesAndChangesNothing := by
  unfold Obligations.NopAcknowledgesAndChangesNothing
  refine ⟨rfl, fun w => decode_eq_instr_iff w .nop, fun w hlow hhigh => ?illegal, exec_nop, fun c a b => ?between,
    fun s p hknown hidle hrst hvalid => ⟨?takes_none, ?idle_edge⟩, txStep_nop _⟩
  case illegal =>
    rw [decode_eq_illegal_iff_not_isLegal, ← Bool.not_eq_true, isLegal_iff_value]
    bv_omega
  case between =>
    rw [txRun_append_nop]
    refine ⟨rfl, ?_, ?_⟩
    · rw [← length_txRun c a, List.eraseIdx_append_of_length_le (Nat.le_refl _), Nat.sub_self, txRun_append]
      rfl
    · rw [← length_txRun c a, List.getElem?_append_right (Nat.le_refl _), Nat.sub_self]
      rfl
  case takes_none => simp [State.takesCommand, hvalid]
  case idle_edge =>
    rcases clockEdge_of_idle hknown hidle hrst hvalid with ⟨-, hedge⟩ | ⟨-, hedge⟩
    · exact ⟨_, hedge, rfl, rfl⟩
    · exact ⟨_, hedge, rfl, rfl⟩

/-! ## INIT -/

/-- Nonzero data under an opcode that takes none (30_encoding.md R54). -/
theorem decode_eq_illegal_of_data {w : CmdWord} (hop : takesNoData (opField w) = true) (hdata : dataField w ≠ 0x00) :
    decode w = .illegal w :=
  (decode_eq_illegal_iff w).2 (.inr ⟨hop, hdata⟩)

/-- Settles O10: what INIT writes does not depend on the register, and it is what a reset leaves there. -/
theorem initStartsAMessage : Obligations.InitStartsAMessage := by
  unfold Obligations.InitStartsAMessage
  refine ⟨rfl, fun w => decode_eq_instr_iff w .crcInit, fun w hop => ?illegal, exec_crcInit, fun c => ?twice,
    fun s p hrst => ?after_reset, rfl⟩
  case illegal => exact decode_eq_illegal_of_data ((takesNoData_iff _).2 (.inr (.inl hop)))
  case twice => simp only [txRun_cons, txRun_nil, txStep_crcInit]
  case after_reset => exact ⟨_, _, clockEdge_of_rst hrst s, exec_crcInit _, rfl⟩

/-! ## BYTE -/

theorem encode_crcByte (b : Byte) : encode (.crcByte b) = 0x0200 ||| b.setWidth 16 := rfl

/-- The index is the register's low byte with the message byte added (40_crc_commands.md R66). -/
theorem tableIndex_eq_xor (c : Word32) (b : Byte) : tableIndex c b = c.extractLsb' 0 8 ^^^ b := by
  have mask_low : (0xFF : Word32).setWidth 8 = BitVec.allOnes 8 := rfl
  rw [tableIndex, zextByte, BitVec.setWidth_and, BitVec.setWidth_xor, mask_low, BitVec.and_allOnes,
    BitVec.setWidth_setWidth_of_le b (by decide), BitVec.setWidth_eq, BitVec.setWidth_eq_extractLsb' (by decide)]

@[simp] theorem memReadT_zero : memReadT 0x00 = 0x00000000 := rfl

/-- A byte equal to the register's low byte selects entry 0: the update is the shift alone. -/
theorem updateCrc_low_byte (c : Word32) : updateCrc c (c.extractLsb' 0 8) = c >>> 8 := by
  rw [updateCrc, tableIndex_eq_xor, BitVec.xor_self]
  exact BitVec.zero_xor

theorem updateCrc_zero (b : Byte) : updateCrc 0x00000000 b = memReadT b := by
  have index_eq : tableIndex 0x00000000 b = b := (tableIndex_eq_xor ..).trans BitVec.zero_xor
  rw [updateCrc, index_eq]
  exact BitVec.xor_zero

/-- The shift brings in zeros: it is logical, whatever the register's top bit. -/
theorem top_byte_ushiftRight_eight (c : Word32) : (c >>> 8).extractLsb' 24 8 = 0x00 := by
  apply BitVec.eq_of_toNat_eq
  rw [BitVec.extractLsb'_toNat, BitVec.toNat_ushiftRight, ← Nat.shiftRight_add, Nat.shiftRight_eq_zero _ _ c.isLt]
  rfl

/-- The shifted register has nothing in the top byte, so the entry alone gives it. -/
theorem top_byte_updateCrc (c : Word32) (b : Byte) :
    (updateCrc c b).extractLsb' 24 8 = (memReadT (tableIndex c b)).extractLsb' 24 8 := by
  rw [updateCrc, BitVec.extractLsb'_xor, top_byte_ushiftRight_eight]
  exact BitVec.xor_zero

/-- Settles O11: the index is a byte of its own, and the shift and the table entry are added to each other. -/
theorem byteAbsorbsOneMessageByte : Obligations.ByteAbsorbsOneMessageByte := by
  unfold Obligations.ByteAbsorbsOneMessageByte
  exact ⟨encode_crcByte, fun w b => decode_eq_instr_iff w (.crcByte b), exec_crcByte, tableIndex_eq_xor,
    updateCrc_low_byte, updateCrc_zero, updateCrc_zero 0x00, updateCrc_low_byte 0x80000000, top_byte_updateCrc,
    top_byte_ushiftRight_eight, by decide⟩

/-! ## READ -/

/-- A READ in mid-message answers with the checksum of the bytes so far, and the message goes on (40_crc_commands.md R67). -/
theorem txRun_message_with_read (c : Word32) (a b : List Byte) :
    txRun c (0x0100 :: (a.map (fun x => encode (.crcByte x)) ++ 0x0300 :: b.map (fun x => encode (.crcByte x)))) =
      (rawCrc Config.init (a ++ b),
        List.replicate (a.length + 1) ⟨.ack, 0x00000000⟩ ++ ⟨.data, crc32 a⟩ ::
          List.replicate b.length ⟨.ack, 0x00000000⟩) := by
  simp only [txRun_cons, txRun_append, txRun_bytes, txStep_crcInit, txStep_crcRead, rawCrc_append, crc32,
    List.replicate_succ, List.cons_append]

/-- Settles O12: READ answers from the register and does not write it, so what comes after sees it as it was. -/
theorem readReturnsTheComplementAndKeepsTheRegister : Obligations.ReadReturnsTheComplementAndKeepsTheRegister := by
  unfold Obligations.ReadReturnsTheComplementAndKeepsTheRegister
  refine ⟨rfl, fun w => decode_eq_instr_iff w .crcRead, fun w hop => ?illegal, exec_crcRead, fun c => ?twice,
    txRun_message_with_read, fun c => ?after_init, fun s p hrst => ?after_reset, txStep_crcRead _, txStep_crcRead _⟩
  case illegal => exact decode_eq_illegal_of_data ((takesNoData_iff _).2 (.inr (.inr hop)))
  case twice =>
    simp only [txRun_cons, txRun_nil, txStep_crcRead]
    rfl
  case after_init =>
    simp only [txRun_cons, txStep_crcInit, txStep_crcRead, finalXor_init]
    rfl
  case after_reset =>
    refine ⟨_, _, clockEdge_of_rst hrst s, exec_crcRead _, ?_⟩
    rw [State.heldResponse_respond, State.resetEdge_crc, finalXor_init]

end Sys2Proof.Machine
end

section
/-! The function `crc32` (41_crc32_function.md R71 to R80). The update is eight steps of a shift register that is linear over `xor`,
so `Raw` is linear in the register and the message together; the affine law and the residue law are read off that. -/

namespace Sys2Proof.Machine

/-! ## The update as eight serial steps (R76) -/

theorem bitStep_of_even {c : Word32} (h : c.getLsbD 0 = false) : bitStep c = c >>> 1 := by
  rw [bitStep_eq_shift_xor, h]
  exact BitVec.xor_zero

/-- While only zeros are shifted out, no step adds the polynomial. -/
theorem bitSteps_of_low_bits_zero {n : Nat} {c : Word32} (h : ∀ k < n, c.getLsbD k = false) : bitSteps n c = c >>> n := by
  induction n generalizing c with
  | zero => exact (BitVec.ushiftRight_zero c).symm
  | succ n ih =>
    have low_shifted (k : Nat) (hk : k < n) : (c >>> 1).getLsbD k = false := by
      rw [BitVec.getLsbD_ushiftRight]
      exact h (1 + k) (by omega)
    rw [bitSteps, bitStep_of_even (h 0 (Nat.succ_pos n)), ih low_shifted, ← BitVec.shiftRight_add, Nat.add_comm]

/-- A word is its low byte and the rest. -/
theorem low_byte_xor_rest (c : Word32) : (c.extractLsb' 0 8).setWidth 32 ^^^ (c >>> 8 <<< 8) = c := by
  ext k hk
  by_cases hlow : k < 8
  · simp [hlow, BitVec.getLsbD_eq_getElem hk]
  · simp [hlow, Nat.add_sub_cancel' (Nat.le_of_not_lt hlow), BitVec.getLsbD_eq_getElem hk]

theorem ushiftRight_shiftLeft_ushiftRight_eight (c : Word32) : c >>> 8 <<< 8 >>> 8 = c >>> 8 := by
  ext k hk
  simpa using BitVec.lt_of_getLsbD

/-- The eight steps take the low byte to its table entry, and shift the rest out of its zeros. -/
theorem bitSteps_eight (c : Word32) : bitSteps 8 c = tableEntry (c.extractLsb' 0 8) ^^^ (c >>> 8) := by
  have rest_low_zero (k : Nat) (hk : k < 8) : (c >>> 8 <<< 8).getLsbD k = false := by
    simp [hk]
  calc bitSteps 8 c
      = bitSteps 8 ((c.extractLsb' 0 8).setWidth 32 ^^^ (c >>> 8 <<< 8)) := by rw [low_byte_xor_rest]
    _ = tableEntry (c.extractLsb' 0 8) ^^^ (c >>> 8 <<< 8 >>> 8) := by
      rw [bitSteps_xor, ← tableEntry, bitSteps_of_low_bits_zero rest_low_zero]
    _ = tableEntry (c.extractLsb' 0 8) ^^^ (c >>> 8) := by rw [ushiftRight_shiftLeft_ushiftRight_eight]

theorem low_byte_zextByte (b : Byte) : (zextByte b).extractLsb' 0 8 = b := by
  rw [zextByte, ← BitVec.setWidth_eq_extractLsb' (by decide), BitVec.setWidth_setWidth_of_le b (by decide),
    BitVec.setWidth_eq]

theorem zextByte_ushiftRight_eight (b : Byte) : zextByte b >>> 8 = 0 := by
  ext k hk
  simp [zextByte]

/-- The low byte of `r ^ b` is the index of the table read, and the rest of it is that of `r`. -/
theorem updateCrc_eq_serialUpdate (r : Word32) (b : Byte) : updateCrc r b = serialUpdate r b := by
  have index_eq : (r ^^^ zextByte b).extractLsb' 0 8 = tableIndex r b := by
    rw [BitVec.extractLsb'_xor, low_byte_zextByte, tableIndex_eq_xor]
  have rest_eq : (r ^^^ zextByte b) >>> 8 = r >>> 8 := by
    rw [BitVec.ushiftRight_xor_distrib, zextByte_ushiftRight_eight]
    exact BitVec.xor_zero
  rw [serialUpdate, bitSteps_eight, index_eq, rest_eq, updateCrc, memReadT_eq_tableEntry]

/-- Settles O8, by linearity of the steps and the split of `r ^ b` into its low byte and the rest. -/
theorem tableUpdateEqualsEightSerialSteps : Obligations.TableUpdateEqualsEightSerialSteps := by
  unfold Obligations.TableUpdateEqualsEightSerialSteps
  exact updateCrc_eq_serialUpdate

/-! ## The whole-buffer function on the engine (R72, R73, R75) -/

theorem crc32Words_eq (d : List Byte) :
    crc32Words d = 0x0100 :: (d.map (fun b => encode (.crcByte b)) ++ [0x0300]) := rfl

/-- Settles O22: the register INIT leaves goes through the bytes, and READ answers from what they leave. -/
theorem commandSequenceComputesCrc32 : Obligations.CommandSequenceComputesCrc32 := by
  unfold Obligations.CommandSequenceComputesCrc32
  intro c d
  refine ⟨crc32Words_eq d, by simp [crc32Words_eq], ?run⟩
  simp only [crc32Words_eq, txRun_cons, txRun_append, txRun_bytes, txRun_nil, txStep_crcInit, txStep_crcRead,
    List.replicate_succ, List.cons_append]
  rfl

/-- Settles O21: the sequence of the empty message is INIT and READ. -/
theorem emptyMessageHasChecksumZero : Obligations.EmptyMessageHasChecksumZero := by
  unfold Obligations.EmptyMessageHasChecksumZero
  have crc32_nil : crc32 [] = 0x00000000 := finalXor_init
  refine ⟨crc32_nil, fun c => ?_⟩
  obtain ⟨-, -, run⟩ := commandSequenceComputesCrc32 c []
  rw [crc32_nil] at run
  exact run

@[simp] theorem messageIn_nil (msg : List Byte) : messageIn msg [] = msg := rfl

@[simp] theorem messageIn_cons (msg : List Byte) (w : CmdWord) (ws : List CmdWord) :
    messageIn msg (w :: ws) = messageIn (messageAfter msg (decode w)) ws := rfl

/-- The register of the message in progress stays the register of the message in progress. -/
theorem txStep_fst_rawCrc (msg : List Byte) (w : CmdWord) :
    (txStep (rawCrc Config.init msg) w).1 = rawCrc Config.init (messageAfter msg (decode w)) := by
  rw [txStep]
  cases decode w with
  | illegal v => rfl
  | instr i =>
    cases i with
    | nop => rfl
    | crcInit => rfl
    | crcByte b => exact (rawCrc_append Config.init msg [b]).symm
    | crcRead => rfl

theorem txRun_fst_rawCrc (msg : List Byte) (ws : List CmdWord) :
    (txRun (rawCrc Config.init msg) ws).1 = rawCrc Config.init (messageIn msg ws) := by
  induction ws generalizing msg with
  | nil => rfl
  | cons w ws ih => rw [txRun_cons, txStep_fst_rawCrc, ih, messageIn_cons]

/-- Only INIT and BYTE change the message in progress. -/
theorem messageAfter_of_not_init_byte {w : CmdWord} (h : ¬ (decode w = .instr .crcInit ∨ opField w = 0x02))
    (msg : List Byte) : messageAfter msg (decode w) = msg := by
  obtain ⟨not_init, not_byte⟩ := not_or.1 h
  cases hdecode : decode w with
  | illegal v => rfl
  | instr i =>
    cases i with
    | nop => rfl
    | crcInit => exact absurd hdecode not_init
    | crcByte b => exact absurd ((decode_eq_crcByte_iff w b).1 hdecode).1 not_byte
    | crcRead => rfl

theorem messageIn_filter_init_byte (msg : List Byte) (ws : List CmdWord) :
    messageIn msg (ws.filter fun w => decode w = .instr .crcInit ∨ opField w = 0x02) = messageIn msg ws := by
  induction ws generalizing msg with
  | nil => rfl
  | cons w ws ih =>
    by_cases h : decode w = .instr .crcInit ∨ opField w = 0x02
    · rw [List.filter_cons, if_pos (decide_eq_true h), messageIn_cons, messageIn_cons, ih]
    · rw [List.filter_cons, if_neg (by rwa [decide_eq_true_iff]), messageIn_cons, messageAfter_of_not_init_byte h, ih]

/-- Settles O23: the register is that of the message in progress, which every word keeps, and READ answers from it. -/
theorem readDependsOnlyOnTheMessage : Obligations.ReadDependsOnlyOnTheMessage := by
  unfold Obligations.ReadDependsOnlyOnTheMessage
  refine ⟨fun msg ws => ?read, fun c before ws => ?after_init, fun msg ws => (messageIn_filter_init_byte msg ws).symm⟩
  case read =>
    have register_eq : (txRun (rawCrc 0xFFFFFFFF msg) ws).1 = rawCrc 0xFFFFFFFF (messageIn msg ws) :=
      txRun_fst_rawCrc msg ws
    rw [txRun_append, register_eq, txRun_cons, txStep_crcRead]
    rfl
  case after_init =>
    rw [txRun_append, txRun_cons, txStep_crcInit]
    exact txRun_fst_rawCrc [] ws

/-! ## Messages run byte by byte (R80) -/

theorem rawCrc_cons_of_updateCrc {r r' : Word32} {b : Byte} (h : updateCrc r b = r') (d : List Byte) :
    rawCrc r (b :: d) = rawCrc r' d := by
  rw [rawCrc, h]

/-- Settles O20: the registers are those of trace S1 of 95_test_vectors.md. -/
theorem checkValueOfNineDigits : Obligations.CheckValueOfNineDigits := by
  unfold Obligations.CheckValueOfNineDigits
  have register_eq : rawCrc Config.init [0x31, 0x32, 0x33, 0x34, 0x35, 0x36, 0x37, 0x38, 0x39] = 0x340BC6D9 := by
    rw [rawCrc_cons_of_updateCrc (r' := 0x7C231048) (by decide), rawCrc_cons_of_updateCrc (r' := 0xB0ACBB32) (by decide),
      rawCrc_cons_of_updateCrc (r' := 0x77B79C2D) (by decide), rawCrc_cons_of_updateCrc (r' := 0x641C1F5C) (by decide),
      rawCrc_cons_of_updateCrc (r' := 0x340AC5E3) (by decide), rawCrc_cons_of_updateCrc (r' := 0xF68D2C9E) (by decide),
      rawCrc_cons_of_updateCrc (r' := 0xAFFC9660) (by decide), rawCrc_cons_of_updateCrc (r' := 0x651F2550) (by decide),
      rawCrc_cons_of_updateCrc (r' := 0x340BC6D9) (by decide), rawCrc]
  rw [crc32, register_eq]
  rfl

theorem rawCrc_init_four_zeros : rawCrc Config.init (List.replicate 4 0x00) = 0xDEBB20E3 := by
  simp only [List.replicate_succ, List.replicate_zero]
  rw [rawCrc_cons_of_updateCrc (r' := 0x2DFD1072) (by decide), rawCrc_cons_of_updateCrc (r' := 0xBE26ED00) (by decide),
    rawCrc_cons_of_updateCrc (r' := 0x00BE26ED) (by decide), rawCrc_cons_of_updateCrc (r' := 0xDEBB20E3) (by decide), rawCrc]

/-! ## One byte (R77) -/

theorem xor_xor_cancel_right {n : Nat} (x y : BitVec n) : x ^^^ y ^^^ y = x := by
  rw [BitVec.xor_assoc, BitVec.xor_self, BitVec.xor_zero]

/-- Settles O24: with all ones in the register, the index is the byte's complement and the rest shifted adds to the final one. -/
theorem oneByteMessageReadsOutTheTable : Obligations.OneByteMessageReadsOutTheTable := by
  unfold Obligations.OneByteMessageReadsOutTheTable
  have one_byte (b : Byte) : crc32 [b] = memReadT (b ^^^ 0xFF) ^^^ 0xFF000000 := by
    have index_eq : tableIndex Config.init b = b ^^^ 0xFF :=
      (tableIndex_eq_xor Config.init b).trans (BitVec.xor_comm ..)
    calc crc32 [b]
        = memReadT (b ^^^ 0xFF) ^^^ (Config.init >>> 8) ^^^ Config.xorOut := by
          rw [crc32, rawCrc, rawCrc, updateCrc, index_eq, finalXor]
      _ = memReadT (b ^^^ 0xFF) ^^^ 0xFF000000 := BitVec.xor_assoc ..
  refine ⟨one_byte, fun i => ?entry, by decide, by decide⟩
  rw [one_byte, xor_xor_cancel_right, xor_xor_cancel_right]

/-! ## Linearity, and the laws it gives (R78, R79) -/

theorem zextByte_xor (a b : Byte) : zextByte (a ^^^ b) = zextByte a ^^^ zextByte b := BitVec.setWidth_xor

/-- The update is linear in the register and the byte together. -/
theorem updateCrc_xor (r s : Word32) (a b : Byte) : updateCrc (r ^^^ s) (a ^^^ b) = updateCrc r a ^^^ updateCrc s b := by
  have shuffle : r ^^^ s ^^^ (zextByte a ^^^ zextByte b) = (r ^^^ zextByte a) ^^^ (s ^^^ zextByte b) := by ac_rfl
  simp only [updateCrc_eq_serialUpdate, serialUpdate]
  rw [zextByte_xor, shuffle, bitSteps_xor]

/-- `Raw` is linear in the register and the message together. -/
theorem rawCrc_xor (r s : Word32) {a b : List Byte} (h : a.length = b.length) :
    rawCrc (r ^^^ s) (xorBytes a b) = rawCrc r a ^^^ rawCrc s b := by
  induction a generalizing r s b with
  | nil =>
    obtain rfl := List.length_eq_zero_iff.1 h.symm
    rfl
  | cons x a ih =>
    cases b with
    | nil => exact absurd h (Nat.succ_ne_zero _)
    | cons y b =>
      calc rawCrc (r ^^^ s) (xorBytes (x :: a) (y :: b))
          = rawCrc (updateCrc r x ^^^ updateCrc s y) (xorBytes a b) := by rw [← updateCrc_xor]; rfl
        _ = rawCrc (updateCrc r x) a ^^^ rawCrc (updateCrc s y) b := ih _ _ (Nat.succ.inj h)

@[simp] theorem length_xorBytes (a b : List Byte) : (xorBytes a b).length = min a.length b.length := List.length_zipWith

theorem xorBytes_zeros (a : List Byte) : xorBytes a (List.replicate a.length 0x00) = a := by
  induction a with
  | nil => rfl
  | cons x a ih => exact congrArg₂ List.cons BitVec.xor_zero ih

/-- Three final complements are one: two of them cancel. -/
theorem finalXor_xor_xor (x y z : Word32) : finalXor (x ^^^ y ^^^ z) = finalXor x ^^^ finalXor y ^^^ finalXor z := by
  have cancel : Config.xorOut = Config.xorOut ^^^ Config.xorOut ^^^ Config.xorOut := rfl
  unfold finalXor
  conv_lhs => rw [cancel]
  ac_rfl

/-- Settles O25: three messages, the third of zeros, make an odd number of initial values and of final complements. -/
theorem checksumIsAffine : Obligations.ChecksumIsAffine := by
  unfold Obligations.ChecksumIsAffine
  refine ⟨fun a b h => ?affine, by rw [crc32, rawCrc_init_four_zeros]; rfl⟩
  have odd_init : Config.init ^^^ Config.init ^^^ Config.init = Config.init := rfl
  have length_eq : (xorBytes a b).length = a.length := by rw [length_xorBytes, ← h, Nat.min_self]
  have raw_eq : rawCrc Config.init (xorBytes a b) =
      rawCrc Config.init a ^^^ rawCrc Config.init b ^^^ rawCrc Config.init (List.replicate a.length 0x00) :=
    calc rawCrc Config.init (xorBytes a b)
        = rawCrc (Config.init ^^^ Config.init ^^^ Config.init)
            (xorBytes (xorBytes a b) (List.replicate a.length 0x00)) := by
          rw [odd_init, ← length_eq, xorBytes_zeros]
      _ = rawCrc Config.init a ^^^ rawCrc Config.init b ^^^ rawCrc Config.init (List.replicate a.length 0x00) := by
          rw [rawCrc_xor _ _ (length_eq.trans List.length_replicate.symm), rawCrc_xor _ _ h]
  rw [crc32, raw_eq, finalXor_xor_xor, ← crc32, ← crc32, ← crc32]

theorem length_le32 (v : Word32) : (le32 v).length = 4 := rfl

theorem low_byte_ushiftRight (r : Word32) (n : Nat) : (r >>> n).extractLsb' 0 8 = r.extractLsb' n 8 := by
  rw [← BitVec.setWidth_eq_extractLsb' (by decide), BitVec.setWidth_ushiftRight_eq_extractLsb]

/-- A register given its own four bytes is shifted out. -/
theorem rawCrc_le32_self (r : Word32) : rawCrc r (le32 r) = 0x00000000 := by
  have shift_byte (n : Nat) : updateCrc (r >>> n) (r.extractLsb' n 8) = r >>> (n + 8) := by
    rw [← low_byte_ushiftRight, updateCrc_low_byte, BitVec.shiftRight_add]
  calc rawCrc r (le32 r)
      = updateCrc (updateCrc (updateCrc (updateCrc (r >>> 0) (r.extractLsb' 0 8)) (r.extractLsb' 8 8))
          (r.extractLsb' 16 8)) (r.extractLsb' 24 8) := by rw [BitVec.ushiftRight_zero]; rfl
    _ = r >>> 32 := by rw [shift_byte 0, shift_byte 8, shift_byte 16, shift_byte 24]
    _ = 0x00000000 := BitVec.ushiftRight_eq_zero (Nat.le_refl 32)

/-- The complement's bytes shift the complement out, and leave what four zero bytes leave of the initial value (R79). -/
theorem rawCrc_le32_finalXor (r : Word32) : rawCrc r (le32 (finalXor r)) = 0xDEBB20E3 := by
  have register_eq : r = finalXor r ^^^ Config.init := (xor_xor_cancel_right r Config.init).symm
  calc rawCrc r (le32 (finalXor r))
      = rawCrc (finalXor r ^^^ Config.init) (xorBytes (le32 (finalXor r)) (List.replicate 4 0x00)) := by
        rw [← register_eq, ← length_le32 (finalXor r), xorBytes_zeros]
    _ = rawCrc (finalXor r) (le32 (finalXor r)) ^^^ rawCrc Config.init (List.replicate 4 0x00) := rawCrc_xor _ _ rfl
    _ = 0xDEBB20E3 := by rw [rawCrc_le32_self, rawCrc_init_four_zeros]; rfl

/-- Settles O26: the message's register meets the four bytes of its own complement. -/
theorem messageWithItsChecksumHasTheResidue : Obligations.MessageWithItsChecksumHasTheResidue := by
  unfold Obligations.MessageWithItsChecksumHasTheResidue
  intro m
  have raw_eq : rawCrc Config.init (m ++ le32 (crc32 m)) = 0xDEBB20E3 := by
    rw [rawCrc_append, crc32, rawCrc_le32_finalXor]
  refine ⟨?_, raw_eq⟩
  rw [crc32, raw_eq]
  rfl

end Sys2Proof.Machine
end

section
/-! The one exception, IllegalCommand (60_exceptions.md R83). Its two grounds exclude each other, so its words are the sum of the
words of either; and no command of the opcode map answers with its kind. -/

namespace Sys2Proof

/-- A word is illegal on one of the two grounds, in the bits of the rule (60_exceptions.md R83). -/
theorem decode_eq_illegal_iff_grounds (w : CmdWord) :
    decode w = .illegal w ↔
      0x04 ≤ (opField w).toNat ∨
        (opField w = 0x00 ∨ opField w = 0x01 ∨ opField w = 0x03) ∧ dataField w ≠ 0x00 := by
  rw [decode_eq_illegal_iff, isReserved_iff, takesNoData_iff]

/-- No word is illegal on both grounds: a reserved opcode is none of those that take no data. -/
theorem not_nonzeroData_of_isReserved (w : CmdWord) (h : isReserved (opField w) = true) :
    (takesNoData (opField w) && decide (dataField w ≠ 0x00)) = false := by
  obtain ⟨takes_data, -⟩ := (isReserved_iff_no_row _).1 h
  rw [takes_data, Bool.false_and]

/-- 64,512 words of reserved opcodes, and 765 with nonzero data (60_exceptions.md R83). -/
theorem wordCount_illegal : wordCount (fun w => decide (decode w = .illegal w)) = 65277 := by
  have by_ground (w : CmdWord) : decide (decode w = .illegal w) =
      (isReserved (opField w) || takesNoData (opField w) && decide (dataField w ≠ 0x00)) := by
    simp only [decode_eq_illegal_iff, Bool.decide_or, Bool.decide_and, Bool.decide_eq_true]
  rw [funext by_ground, wordCount_or_of_disjoint not_nonzeroData_of_isReserved, wordCount_isReserved,
    wordCount_nonzeroData]

end Sys2Proof

namespace Sys2Proof.Machine

/-- `Step` answers a command of the opcode map with ACK or DATA (40_crc_commands.md R65 to R68). -/
theorem txCommand_instr_kind_ne_illegal (c : Word32) (i : Instr) : (txCommand c (.instr i)).2.kind ≠ .illegal := by
  cases i with
  | nop => exact nofun
  | crcInit => exact nofun
  | crcByte b => exact nofun
  | crcRead => exact nofun

theorem rspKind_ne_illegal_of_exec {i : Instr} {s t : State} (h : exec i s = .next t) : t.rspKind ≠ 0b10 := by
  rw [exec_eq_txCommand] at h
  cases h
  rw [State.respond_rspKind, Ne, RspKind.code_eq_illegal_iff]
  exact txCommand_instr_kind_ne_illegal s.crc i

/-- Settles O13: the grounds are those of the decoder's fields, counted one by one, and legal commands answer ACK or DATA. -/
theorem illegalWordsAreAnsweredAndChangeNothing : Obligations.IllegalWordsAreAnsweredAndChangeNothing := by
  unfold Obligations.IllegalWordsAreAnsweredAndChangeNothing
  exact ⟨decode_eq_illegal_iff_grounds, fun _ s illegal => performWord_of_illegal illegal s, wordCount_illegal,
    fun _ _ _ hexec => rspKind_ne_illegal_of_exec hexec⟩

end Sys2Proof.Machine
end

section
/-! Reset and the two handshakes (70_reset_and_hazards.md R100, R101, R104, R105): first when the port is ready, when a command is
taken and which edge each case of `clockEdge` is; then the rules. -/

namespace Sys2Proof.Machine

/-! ## When a command is taken -/

theorem State.tableAvailable_iff (s : State) : s.tableAvailable = true ↔ s.fillLeft = 0 := decide_eq_true_iff

/-- `cmd_ready` by its three conditions (70_reset_and_hazards.md R104). -/
theorem State.cmdReady_iff (s : State) (p : PortIn) :
    s.cmdReady p = true ↔ s.rspPending = false ∧ s.tableAvailable = true ∧ p.rst = false := by
  simp only [State.cmdReady, Bool.and_eq_true, Bool.not_eq_true', and_assoc]

/-- An edge takes a command by the three levels of the rule (70_reset_and_hazards.md R104). -/
theorem State.takesCommand_iff (s : State) (p : PortIn) :
    s.takesCommand p = true ↔ p.rst = false ∧ p.cmdValid = true ∧ s.cmdReady p = true := by
  simp only [State.takesCommand, Bool.and_eq_true, Bool.not_eq_true', and_assoc]

theorem State.takesCommand_eq_false_of_rst {p : PortIn} (h : p.rst = true) (s : State) : s.takesCommand p = false := by
  simp [State.takesCommand, h]

theorem State.takesCommand_eq_false_of_not_cmdValid {p : PortIn} (h : p.cmdValid = false) (s : State) :
    s.takesCommand p = false := by
  simp [State.takesCommand, h]

theorem State.cmdReady_eq_false_of_pending {s : State} (h : s.rspPending = true) (p : PortIn) : s.cmdReady p = false := by
  simp [State.cmdReady, h]

theorem State.takesCommand_eq_false_of_pending {s : State} (h : s.rspPending = true) (p : PortIn) :
    s.takesCommand p = false := by
  simp [State.takesCommand, State.cmdReady_eq_false_of_pending h]

/-- A step whose edge is one with reset takes no command (70_reset_and_hazards.md R101). -/
theorem State.commandAt_eq_none_of_rst {s : State} {p : PortIn} {rest : List HostMove} (hmove : s.host = .edge p :: rest)
    (hrst : p.rst = true) : s.commandAt = none := by
  simp [State.commandAt, State.nextPorts, hmove, State.takesCommand_eq_false_of_rst hrst]

/-- Where no word was offered before, the word taken is the one at that edge. -/
theorem State.takenWord_of_no_offer {s : State} (h : s.offered = []) (p : PortIn) : s.takenWord p = p.cmd :=
  State.takenWord_of_stable (by simp [h])

/-! ## Which edge it is -/

/-- A response the host can read is a response held. -/
theorem State.rspPending_of_heldResponse {s : State} {r : Response} (h : s.heldResponse = some r) :
    s.rspPending = true := by
  cases hpending : s.rspPending with
  | true => rfl
  | false => simp [State.heldResponse_of_idle hpending] at h

theorem step_of_edge {s : State} {p : PortIn} {rest : List HostMove} (h : s.host = .edge p :: rest) :
    step s = clockEdge p { s with host := rest } := by
  simp [step, h, performMove]

/-- The edge that takes a command performs the word taken, with the offer over (70_reset_and_hazards.md R105). -/
theorem clockEdge_of_takesCommand {s : State} {p : PortIn} (hknown : s.known = true) (h : s.takesCommand p = true) :
    clockEdge p s = performWord (s.takenWord p) s.accepted := by
  obtain ⟨hrst, hvalid, hready⟩ := (s.takesCommand_iff p).1 h
  obtain ⟨hidle, htable, -⟩ := (s.cmdReady_iff p).1 hready
  have hfill : s.fillLeft = 0 := s.tableAvailable_iff.1 htable
  simpa [hknown, hrst, hvalid, hidle, hfill] using clockEdge_cases p s

/-- The edge at which the host takes the response it reads releases it (70_reset_and_hazards.md R105). -/
theorem clockEdge_of_rspReady {s : State} {p : PortIn} {r : Response} (hknown : s.known = true) (hrst : p.rst = false)
    (hready : p.rspReady = true) (hheld : s.heldResponse = some r) : clockEdge p s = .next (s.releaseEdge p) := by
  have hpending : s.rspPending = true := State.rspPending_of_heldResponse hheld
  have hdeliver : clockEdge p s = deliverResponse p s := by
    simpa [hknown, hrst, hready, hpending] using clockEdge_cases p s
  rw [hdeliver, deliverResponse, hheld]

/-- An edge at which the host leaves the response keeps it held (70_reset_and_hazards.md R105). -/
theorem clockEdge_of_not_rspReady {s : State} {p : PortIn} (hknown : s.known = true) (hrst : p.rst = false)
    (hready : p.rspReady = false) (hpending : s.rspPending = true) : clockEdge p s = .next (s.waitEdge p) := by
  simpa [hknown, hrst, hready, hpending] using clockEdge_cases p s

/-- An edge without reset that takes no command gives the response, keeps it, goes on with the fill, or is quiet
(70_reset_and_hazards.md R103 to R105). -/
theorem clockEdge_of_no_command {s t : State} {p : PortIn} (hrst : p.rst = false) (htakes : s.takesCommand p = false)
    (hedge : clockEdge p s = .next t) :
    t = s.releaseEdge p ∨ (s.rspPending = true ∧ t = s.waitEdge p) ∨ t = s.fillEdge p ∨ t = s.quietEdge p := by
  rcases clockEdge_cases p s with ⟨hreset, -⟩ | ⟨-, -, refused⟩ | ⟨-, -, -, -, delivered⟩ | ⟨-, -, hpending, -, waited⟩ |
    ⟨-, -, -, -, filled⟩ | ⟨-, -, hidle, hfill, hvalid, -⟩ | ⟨-, -, -, -, -, quiet⟩
  · simp [hrst] at hreset
  · cases hedge.symm.trans refused
  · rcases deliverResponse_cases p s with ⟨-, faulted⟩ | ⟨-, -, released⟩
    · cases hedge.symm.trans (delivered.trans faulted)
    · cases hedge.symm.trans (delivered.trans released)
      exact .inl rfl
  · cases hedge.symm.trans waited
    exact .inr (.inl ⟨hpending, rfl⟩)
  · cases hedge.symm.trans filled
    exact .inr (.inr (.inl rfl))
  · have hready : s.cmdReady p = true := (s.cmdReady_iff p).2 ⟨hidle, s.tableAvailable_iff.2 hfill, hrst⟩
    have taken : s.takesCommand p = true := (s.takesCommand_iff p).2 ⟨hrst, hvalid, hready⟩
    simp [taken] at htakes
  · cases hedge.symm.trans quiet
    exact .inr (.inr (.inr rfl))

/-! ## Reset (R100, R101) -/

/-- Two reset edges leave what one leaves: the second finds the values of the first, and the fill started
(70_reset_and_hazards.md R100, R103). -/
theorem State.resetEdge_agrees_resetEdge (s : State) (p q : PortIn) :
    (s.resetEdge p).agrees ((s.resetEdge p).resetEdge q) := by
  simp [State.agrees]

/-- Settles O32: a reset edge is `resetEdge` whatever the state, and a response left alone meets a `waitEdge`. -/
theorem resetEdgeLeavesTheResetState : Obligations.ResetEdgeLeavesTheResetState := by
  unfold Obligations.ResetEdgeLeavesTheResetState
  refine ⟨fun s p hrst => ?leaves, fun s p q hp hq => ?twice, fun s t p hknown hpending hrst hready hedge => ?stays⟩
  case leaves =>
    exact ⟨s.takesCommand_eq_false_of_rst hrst, _, clockEdge_of_rst hrst s, rfl, rfl, rfl, rfl, rfl, rfl⟩
  case twice =>
    exact ⟨_, _, clockEdge_of_rst hp s, clockEdge_of_rst hq _, s.resetEdge_agrees_resetEdge p q⟩
  case stays =>
    rw [clockEdge_of_not_rspReady hknown hrst hready hpending] at hedge
    cases hedge
    exact ⟨hpending, rfl, rfl⟩

/-- Settles O33: the reset edge ends the offer, so nothing shown before it can be the word taken after it. -/
theorem resetTakesPrecedenceOverACommand : Obligations.ResetTakesPrecedenceOverACommand := by
  unfold Obligations.ResetTakesPrecedenceOverACommand
  intro s p rest hmove hrst
  have hstep : step s = .next (({ s with host := rest } : State).resetEdge p) := by
    rw [step_of_edge hmove, clockEdge_of_rst hrst]
  exact ⟨State.commandAt_eq_none_of_rst hmove hrst, _, hstep, rfl, rfl, rfl, rfl,
    fun _ hvalid => State.takesCommand_eq_false_of_not_cmdValid hvalid _, State.takenWord_of_no_offer rfl⟩

/-! ## The command handshake (R104) -/

/-- An edge that takes no command issues nothing: `crc` stays, and a response held after it was held before. -/
theorem clockEdge_issues_nothing {s t : State} {p : PortIn} (hrst : p.rst = false) (htakes : s.takesCommand p = false)
    (hedge : clockEdge p s = .next t) :
    t.crc = s.crc ∧ (t.rspPending = true → s.rspPending = true ∧ t.rspKind = s.rspKind ∧ t.rspData = s.rspData) := by
  rcases clockEdge_of_no_command hrst htakes hedge with rfl | ⟨hpending, rfl⟩ | rfl | rfl
  · exact ⟨rfl, nofun⟩
  · exact ⟨rfl, fun _ => ⟨hpending, rfl, rfl⟩⟩
  · exact ⟨rfl, nofun⟩
  · exact ⟨rfl, nofun⟩

/-- Settles O34: a word held through its offer is the one taken, and the edges that take none are the four of the ports. -/
theorem commandHandshake : Obligations.CommandHandshake := by
  unfold Obligations.CommandHandshake
  refine ⟨State.cmdReady_iff, State.takesCommand_iff, fun s p hknown htakes hstable => ?performed,
    fun _ _ _ _ hrst htakes hedge => clockEdge_issues_nothing hrst htakes hedge⟩
  rw [clockEdge_of_takesCommand hknown htakes, State.takenWord_of_stable hstable]
  rfl

/-! ## The response handshake (R105) -/

/-- The edge that takes a command leaves the register of `Step` and holds its response. -/
theorem clockEdge_eq_txStep {s : State} {p : PortIn} (hknown : s.known = true)
    (h : s.takesCommand p = true) :
    clockEdge p s = .next ((s.accepted.setCrc (txStep s.crc (s.takenWord p)).1).respond
      (txStep s.crc (s.takenWord p)).2.kind (txStep s.crc (s.takenWord p)).2.data) := by
  rw [clockEdge_of_takesCommand hknown h, performWord_eq_txStep, State.accepted_crc]

/-- Settles O36: a command's edge holds the response of `Step`, and a held response meets its release or a wait. -/
theorem responseHandshake : Obligations.ResponseHandshake := by
  unfold Obligations.ResponseHandshake
  refine ⟨fun s p hknown htakes => ?performed, fun s p => ?ports, fun s p r hknown hrst hready hheld => ?released,
    fun s p hknown hrst hready hpending => ?stable⟩
  case performed =>
    refine ⟨_, clockEdge_eq_txStep hknown htakes, rfl, ?_⟩
    rw [State.heldResponse_respond, State.respond_crc, State.setCrc_crc]
  case ports =>
    exact ⟨rfl, fun hpending => ⟨rfl, rfl, State.cmdReady_eq_false_of_pending hpending p,
      State.takesCommand_eq_false_of_pending hpending p⟩⟩
  case released =>
    exact ⟨_, clockEdge_of_rspReady hknown hrst hready hheld, rfl, rfl, hknown, rfl, rfl⟩
  case stable =>
    exact ⟨_, clockEdge_of_not_rspReady hknown hrst hready hpending, hpending, rfl, rfl, rfl⟩

end Sys2Proof.Machine
end

section
/-! The transaction level (40_crc_commands.md R64, R69): sequences of legal and of illegal words, a message fed in parts, and the
table reads that words make. -/

namespace Sys2Proof.Machine

/-! ## Decoder and encoder (30_encoding.md R55) -/

/-- Settles O1: each word is one of its row, or of none. -/
theorem specWordsDecodeToTheirCommands : Obligations.SpecWordsDecodeToTheirCommands := by
  unfold Obligations.SpecWordsDecodeToTheirCommands
  decide

/-- An illegal word is the word of no command: the decoder would read the command back. -/
theorem encode_ne_of_decode_illegal {w v : CmdWord} (h : decode w = .illegal v) (i : Instr) : encode i ≠ w := by
  rintro rfl
  cases (decode_encode i).symm.trans h

/-- Settles O2: the decoder's cases are read back by the encoder's, and an illegal answer carries the word. -/
theorem decodeAndEncodeAgree : Obligations.DecodeAndEncodeAgree := by
  unfold Obligations.DecodeAndEncodeAgree
  exact ⟨fun i _ => decode_encode i, fun _ _ => encode_eq_of_decode,
    fun _ _ h => ⟨decode_illegal_eq h, encode_ne_of_decode_illegal h⟩⟩

/-! ## Sequences of words (R69) -/

/-- `Step` on an illegal word (60_exceptions.md R83). -/
theorem txStep_of_illegal {w : CmdWord} (h : decode w = .illegal w) (c : Word32) :
    txStep c w = (c, ⟨.illegal, w.setWidth 32⟩) := by
  rw [txStep, h]
  rfl

/-- Settles O14, by induction on the words: each leaves the register the next one starts from. -/
theorem illegalWordsInARowEachGetTheirResponse : Obligations.IllegalWordsInARowEachGetTheirResponse := by
  unfold Obligations.IllegalWordsInARowEachGetTheirResponse
  intro c ws hws
  induction ws with
  | nil => rfl
  | cons w ws ih =>
    obtain ⟨hw, hrest⟩ := List.forall_mem_cons.1 hws
    have step_eq := txStep_of_illegal ((decode_eq_illegal_iff_not_isLegal w).2 hw) c
    rw [txRun_cons, step_eq, ih hrest, List.map_cons]

/-- Settles O17: the register `a` leaves is threaded into `b`. -/
theorem runOfTwoPartsIsOneAfterTheOther : Obligations.RunOfTwoPartsIsOneAfterTheOther :=
  txRun_append

theorem txStep_kind_ne_illegal_of_isLegal {w : CmdWord} (h : isLegal w = true) (c : Word32) :
    (txStep c w).2.kind ≠ .illegal := by
  obtain ⟨i, hi⟩ := (isLegal_iff_exists_decode w).1 h
  rw [txStep, hi]
  exact txCommand_instr_kind_ne_illegal c i

theorem noIllegal_txRun_of_isLegal {ws : List CmdWord} (h : ∀ w ∈ ws, isLegal w = true) (c : Word32) :
    noIllegal (txRun c ws).2 = true := by
  induction ws generalizing c with
  | nil => rfl
  | cons w ws ih =>
    obtain ⟨hw, hrest⟩ := List.forall_mem_cons.1 h
    have rest_sound := ih hrest (txStep c w).1
    rw [noIllegal] at rest_sound ⊢
    rw [txRun_cons, List.all_cons, rest_sound, Bool.and_true, decide_eq_true_eq]
    exact txStep_kind_ne_illegal_of_isLegal hw c

/-- Settles O18: one response per word whatever the words, and a legal word is not answered ILLEGAL. -/
theorem legalCommandsNeverFail : Obligations.LegalCommandsNeverFail := by
  unfold Obligations.LegalCommandsNeverFail
  exact fun c ws hlegal => ⟨length_txRun c ws, noIllegal_txRun_of_isLegal hlegal c⟩

/-- Settles O19: the register is threaded from each command to the next. -/
theorem eachCommandSeesTheOneBefore : Obligations.EachCommandSeesTheOneBefore := by
  unfold Obligations.EachCommandSeesTheOneBefore
  have init_step (c : Word32) : txStep c (encode .crcInit) = (0xFFFFFFFF, ⟨.ack, 0x00000000⟩) := rfl
  have read_step (c : Word32) : txStep c (encode .crcRead) = (c, ⟨.data, c ^^^ 0xFFFFFFFF⟩) := rfl
  refine ⟨fun c b => ?_, fun c a b => ?_, fun c b => ?_⟩
  · simp only [txRun_cons, txRun_nil, txStep_encode_crcByte, read_step]
  · simp only [txRun_cons, txRun_nil, txStep_encode_crcByte]
  · simp only [txRun_cons, txRun_nil, txStep_encode_crcByte, init_step]

/-! ## A message in parts (41_crc32_function.md R81) -/

/-- A READ at the end of a sequence answers last, from the register the sequence leaves. -/
theorem getLast?_txRun_read (c : Word32) (ws : List CmdWord) :
    (txRun c (ws ++ [0x0300])).2.getLast? = some ⟨.data, finalXor (txRun c ws).1⟩ := by
  rw [txRun_append, txRun_cons, txRun_nil, txStep_crcRead, List.getLast?_concat]

/-- Settles O27: the register before the last READ is that of the whole message, with a READ in its middle or without. -/
theorem streamingContinuesAMessage : Obligations.StreamingContinuesAMessage := by
  unfold Obligations.StreamingContinuesAMessage
  refine ⟨rawCrc_append, fun c a b => ?whole, fun c a b => ?parts⟩
  case whole =>
    rw [← List.map_append, ← List.cons_append, getLast?_txRun_read, txRun_cons, txStep_crcInit, txRun_bytes]
    rfl
  case parts =>
    rw [← List.cons_append (a := 0x0300), ← List.append_assoc, ← List.cons_append, getLast?_txRun_read, txRun_message_with_read]
    rfl

/-! ## Table reads (20_memory.md R33, 41_crc32_function.md R82) -/

/-- Only BYTE reads the table: the index is the register's low byte with the data byte added. -/
theorem commandRead_decode (c : Word32) (w : CmdWord) :
    commandRead c (decode w) = if opField w = 0x02 then [c.extractLsb' 0 8 ^^^ w.extractLsb' 0 8] else [] := by
  by_cases hbyte : opField w = 0x02
  · rw [if_pos hbyte, (decode_eq_crcByte_iff w (dataField w)).2 ⟨hbyte, rfl⟩, commandRead, tableIndex_eq_xor]
    rfl
  · rw [if_neg hbyte]
    cases hdecode : decode w with
    | illegal v => rfl
    | instr i =>
      cases i with
      | nop => rfl
      | crcInit => rfl
      | crcByte b => exact absurd ((decode_eq_crcByte_iff w b).1 hdecode).1 hbyte
      | crcRead => rfl

theorem length_commandRead_decode (c : Word32) (w : CmdWord) :
    (commandRead c (decode w)).length = if opField w = 0x02 then 1 else 0 := by
  rw [commandRead_decode]
  split <;> rfl

/-- What the one word with a read, BYTE, computes from it. -/
theorem txStep_of_commandRead {c : Word32} {w : CmdWord} {i : Byte} (h : commandRead c (decode w) = [i]) :
    txStep c w = (memReadT i ^^^ (c >>> 8), ⟨.ack, 0x00000000⟩) := by
  rw [txStep]
  cases hdecode : decode w with
  | illegal v =>
    rw [hdecode] at h
    cases h
  | instr j =>
    rw [hdecode] at h
    cases j <;> cases h
    rfl

/-- What a word without a read computes: neither the register nor the response holds a table entry. -/
theorem txStep_of_commandRead_nil {c : Word32} {w : CmdWord} (h : commandRead c (decode w) = []) :
    txStep c w = (if w = 0x0100 then 0xFFFFFFFF else c,
      if w = 0x0000 ∨ w = 0x0100 then ⟨.ack, 0x00000000⟩
      else if w = 0x0300 then ⟨.data, c ^^^ 0xFFFFFFFF⟩ else ⟨.illegal, w.setWidth 32⟩) := by
  cases hdecode : decode w with
  | illegal v =>
    obtain rfl := decode_illegal_eq hdecode
    have not_nop : v ≠ 0x0000 := (encode_ne_of_decode_illegal hdecode .nop).symm
    have not_init : v ≠ 0x0100 := (encode_ne_of_decode_illegal hdecode .crcInit).symm
    have not_read : v ≠ 0x0300 := (encode_ne_of_decode_illegal hdecode .crcRead).symm
    rw [txStep_of_illegal hdecode, if_neg not_init, if_neg (not_or.2 ⟨not_nop, not_init⟩), if_neg not_read]
  | instr j =>
    obtain rfl := encode_eq_of_decode hdecode
    cases j with
    | nop => rfl
    | crcInit => rfl
    | crcByte b =>
      rw [hdecode] at h
      cases h
    | crcRead => rfl

theorem txReads_append (c : Word32) (a b : List CmdWord) :
    txReads c (a ++ b) = txReads c a ++ txReads (txRun c a).1 b := by
  induction a generalizing c with
  | nil => rfl
  | cons w a ih => rw [List.cons_append, txReads, ih, txReads, List.append_assoc, txRun_cons]

theorem length_txReads (c : Word32) (ws : List CmdWord) :
    (txReads c ws).length = ws.countP (fun w => opField w = 0x02) := by
  induction ws generalizing c with
  | nil => rfl
  | cons w ws ih =>
    simp only [txReads, List.length_append, length_commandRead_decode, ih, List.countP_cons, decide_eq_true_eq,
      Nat.add_comm]

theorem opField_encode_crcByte (b : Byte) : opField (encode (.crcByte b)) = 0x02 := opField_formatC 0x02 b

/-- The sequence of a message has one BYTE per byte, and its INIT and READ read nothing. -/
theorem length_txReads_crc32Words (c : Word32) (d : List Byte) : (txReads c (crc32Words d)).length = d.length := by
  have init_field : opField (0x0100 : CmdWord) ≠ 0x02 := by decide
  have read_field : opField (0x0300 : CmdWord) ≠ 0x02 := by decide
  have bytes_count : (d.map fun b => encode (.crcByte b)).countP (fun w => opField w = 0x02) = d.length := by
    rw [List.countP_eq_length.2 (by simp [opField_encode_crcByte]), List.length_map]
  rw [length_txReads, crc32Words_eq, List.countP_cons_of_neg (by simpa using init_field), List.countP_append, bytes_count,
    List.countP_cons_of_neg (by simpa using read_field), List.countP_nil, Nat.add_zero]

/-- Settles O28: a word's register and response are computed from the read listed for it and the old register. -/
theorem oneTableReadPerByte : Obligations.OneTableReadPerByte := by
  unfold Obligations.OneTableReadPerByte
  refine ⟨commandRead_decode, fun w s => ⟨_, performWord_eq_txStep w s, fun i hread => ?read, fun hnone => ?none⟩,
    txReads_append, fun c w => List.append_nil _, length_txReads, length_txReads_crc32Words, by decide⟩
  case read =>
    rw [txStep_of_commandRead hread, State.heldResponse_respond]
    exact ⟨rfl, rfl⟩
  case none =>
    rw [txStep_of_commandRead_nil hnone, State.heldResponse_respond]
    exact ⟨rfl, rfl⟩

end Sys2Proof.Machine
end

section
/-! One edge and one step (70_reset_and_hazards.md R100 to R105), as a relation with one case for each thing an edge can do; from
it the invariant of a reset engine, and the rules that speak of one edge. -/

namespace Sys2Proof.Machine

/-! ## The edges that answer a next state -/

/-- The edge that takes a command: the register and the response are those of `Step` on the word taken. -/
def State.commandEdge (s : State) (p : PortIn) : State :=
  (s.accepted.setCrc (txStep s.crc (s.takenWord p)).1).respond
    (txStep s.crc (s.takenWord p)).2.kind (txStep s.crc (s.takenWord p)).2.data

@[simp] theorem State.commandEdge_crc (s : State) (p : PortIn) :
    (s.commandEdge p).crc = (txStep s.crc (s.takenWord p)).1 := rfl
@[simp] theorem State.commandEdge_rspPending (s : State) (p : PortIn) : (s.commandEdge p).rspPending = true := rfl
@[simp] theorem State.commandEdge_rspKind (s : State) (p : PortIn) :
    (s.commandEdge p).rspKind = (txStep s.crc (s.takenWord p)).2.kind.code := rfl
@[simp] theorem State.commandEdge_rspData (s : State) (p : PortIn) :
    (s.commandEdge p).rspData = (txStep s.crc (s.takenWord p)).2.data := rfl
@[simp] theorem State.commandEdge_known (s : State) (p : PortIn) : (s.commandEdge p).known = s.known := rfl
@[simp] theorem State.commandEdge_fillLeft (s : State) (p : PortIn) : (s.commandEdge p).fillLeft = s.fillLeft := rfl
@[simp] theorem State.commandEdge_fillTime (s : State) (p : PortIn) : (s.commandEdge p).fillTime = s.fillTime := rfl
@[simp] theorem State.commandEdge_offered (s : State) (p : PortIn) : (s.commandEdge p).offered = [] := rfl
@[simp] theorem State.commandEdge_host (s : State) (p : PortIn) : (s.commandEdge p).host = s.host := rfl
@[simp] theorem State.heldResponse_commandEdge (s : State) (p : PortIn) :
    (s.commandEdge p).heldResponse = some (txStep s.crc (s.takenWord p)).2 :=
  State.heldResponse_respond _ _ _

/-- What one edge makes of a state, where it answers one: a case for each edge, with the guards under which it is that one. -/
inductive EdgeStep (p : PortIn) (s : State) : State → Prop
  | reset (hrst : p.rst = true) : EdgeStep p s (s.resetEdge p)
  | release {r : Response} (hrst : p.rst = false) (hknown : s.known = true) (hready : p.rspReady = true)
      (hheld : s.heldResponse = some r) : EdgeStep p s (s.releaseEdge p)
  | wait (hrst : p.rst = false) (hknown : s.known = true) (hready : p.rspReady = false)
      (hpending : s.rspPending = true) : EdgeStep p s (s.waitEdge p)
  | fill (hrst : p.rst = false) (hknown : s.known = true) (hidle : s.rspPending = false)
      (hfill : s.fillLeft ≠ 0) : EdgeStep p s (s.fillEdge p)
  | command (hknown : s.known = true) (htakes : s.takesCommand p = true) : EdgeStep p s (s.commandEdge p)
  | quiet (hrst : p.rst = false) (hknown : s.known = true) (hidle : s.rspPending = false) (hfill : s.fillLeft = 0)
      (hvalid : p.cmdValid = false) : EdgeStep p s (s.quietEdge p)

theorem clockEdge_of_fill {s : State} {p : PortIn} (hrst : p.rst = false) (hknown : s.known = true)
    (hidle : s.rspPending = false) (hfill : s.fillLeft ≠ 0) : clockEdge p s = .next (s.fillEdge p) := by
  simpa [hrst, hknown, hidle, hfill] using clockEdge_cases p s

theorem clockEdge_of_quiet {s : State} {p : PortIn} (hrst : p.rst = false) (hknown : s.known = true)
    (hidle : s.rspPending = false) (hfill : s.fillLeft = 0) (hvalid : p.cmdValid = false) :
    clockEdge p s = .next (s.quietEdge p) := by
  simpa [hrst, hknown, hidle, hfill, hvalid] using clockEdge_cases p s

theorem clockEdge_of_unknown {s : State} {p : PortIn} (hrst : p.rst = false) (hknown : s.known = false) :
    clockEdge p s = .refused .beforeFirstReset := by
  simpa [hrst, hknown] using clockEdge_cases p s

/-- A host that takes what it can read as no response finds the engine at fault (30_encoding.md R57). -/
theorem clockEdge_of_unreadable {s : State} {p : PortIn} (hrst : p.rst = false) (hknown : s.known = true)
    (hpending : s.rspPending = true) (hready : p.rspReady = true) (hheld : s.heldResponse = none) :
    clockEdge p s = .fault .reservedResponse := by
  have delivered : clockEdge p s = deliverResponse p s := by
    simpa [hrst, hknown, hpending, hready] using clockEdge_cases p s
  rw [delivered, deliverResponse, hheld]

theorem State.takesCommand_of_ready {s : State} {p : PortIn} (hrst : p.rst = false) (hidle : s.rspPending = false)
    (hfill : s.fillLeft = 0) (hvalid : p.cmdValid = true) : s.takesCommand p = true :=
  (s.takesCommand_iff p).2 ⟨hrst, hvalid, (s.cmdReady_iff p).2 ⟨hidle, s.tableAvailable_iff.2 hfill, hrst⟩⟩

theorem State.takesCommand_eq_false_of_fill {s : State} (hfill : s.fillLeft ≠ 0) (p : PortIn) :
    s.takesCommand p = false := by
  simp [State.takesCommand, State.cmdReady, State.tableAvailable, hfill]

/-- What holds of a state and an edge that takes a command (70_reset_and_hazards.md R104). -/
theorem State.guards_of_takesCommand {s : State} {p : PortIn} (h : s.takesCommand p = true) :
    p.rst = false ∧ p.cmdValid = true ∧ s.rspPending = false ∧ s.fillLeft = 0 := by
  obtain ⟨hrst, hvalid, hready⟩ := (s.takesCommand_iff p).1 h
  obtain ⟨hidle, htable, -⟩ := (s.cmdReady_iff p).1 hready
  exact ⟨hrst, hvalid, hidle, s.tableAvailable_iff.1 htable⟩

/-- What an edge can answer: a next state of `EdgeStep`, the fault of the reserved kind, or the refusal before the first reset. -/
theorem clockEdge_outcomes (p : PortIn) (s : State) :
    (∃ t, clockEdge p s = .next t ∧ EdgeStep p s t) ∨
    (clockEdge p s = .fault .reservedResponse ∧
      p.rst = false ∧ s.known = true ∧ s.rspPending = true ∧ p.rspReady = true ∧ s.heldResponse = none) ∨
    (clockEdge p s = .refused .beforeFirstReset ∧ p.rst = false ∧ s.known = false) := by
  rcases clockEdge_cases p s with ⟨hrst, reset⟩ | ⟨hrst, hknown, refused⟩ | ⟨hrst, hknown, hpending, hready, delivered⟩ |
    ⟨hrst, hknown, hpending, hready, waited⟩ | ⟨hrst, hknown, hidle, hfill, filled⟩ |
    ⟨hrst, hknown, hidle, hfill, hvalid, -⟩ | ⟨hrst, hknown, hidle, hfill, hvalid, quiet⟩
  · exact .inl ⟨_, reset, .reset hrst⟩
  · exact .inr (.inr ⟨refused, hrst, hknown⟩)
  · rcases deliverResponse_cases p s with ⟨hheld, faulted⟩ | ⟨r, hheld, released⟩
    · exact .inr (.inl ⟨delivered.trans faulted, hrst, hknown, hpending, hready, hheld⟩)
    · exact .inl ⟨_, delivered.trans released, .release hrst hknown hready hheld⟩
  · exact .inl ⟨_, waited, .wait hrst hknown hready hpending⟩
  · exact .inl ⟨_, filled, .fill hrst hknown hidle hfill⟩
  · have htakes := State.takesCommand_of_ready hrst hidle hfill hvalid
    exact .inl ⟨_, clockEdge_eq_txStep hknown htakes, .command hknown htakes⟩
  · exact .inl ⟨_, quiet, .quiet hrst hknown hidle hfill hvalid⟩

/-- The relation is the edge's answer. -/
theorem clockEdge_eq_next_iff {p : PortIn} {s t : State} : clockEdge p s = .next t ↔ EdgeStep p s t := by
  constructor
  · intro h
    rcases clockEdge_outcomes p s with ⟨u, hnext, hedge⟩ | ⟨hfault, -⟩ | ⟨hrefused, -⟩
    · cases h.symm.trans hnext
      exact hedge
    · cases h.symm.trans hfault
    · cases h.symm.trans hrefused
  · intro h
    cases h with
    | reset hrst => exact clockEdge_of_rst hrst s
    | release hrst hknown hready hheld => exact clockEdge_of_rspReady hknown hrst hready hheld
    | wait hrst hknown hready hpending => exact clockEdge_of_not_rspReady hknown hrst hready hpending
    | fill hrst hknown hidle hfill => exact clockEdge_of_fill hrst hknown hidle hfill
    | command hknown htakes => exact clockEdge_eq_txStep hknown htakes
    | quiet hrst hknown hidle hfill hvalid => exact clockEdge_of_quiet hrst hknown hidle hfill hvalid

/-- No edge changes the implementation's fill time, the number of the engine, or the host's moves to come. -/
theorem EdgeStep.frame {p : PortIn} {s t : State} (h : EdgeStep p s t) :
    t.fillTime = s.fillTime ∧ t.engine = s.engine ∧ t.host = s.host := by
  cases h with
  | reset => exact ⟨rfl, rfl, rfl⟩
  | release => exact ⟨rfl, rfl, rfl⟩
  | wait => exact ⟨rfl, rfl, rfl⟩
  | fill => exact ⟨rfl, rfl, rfl⟩
  | command => exact ⟨rfl, rfl, rfl⟩
  | quiet => exact ⟨rfl, rfl, rfl⟩

/-! ## One step -/

/-- The next move of the host's list is done; nothing else changes. -/
def State.popMove (s : State) : State := { s with host := s.host.tail }

@[simp] theorem State.popMove_crc (s : State) : s.popMove.crc = s.crc := rfl
@[simp] theorem State.popMove_rspPending (s : State) : s.popMove.rspPending = s.rspPending := rfl
@[simp] theorem State.popMove_rspKind (s : State) : s.popMove.rspKind = s.rspKind := rfl
@[simp] theorem State.popMove_rspData (s : State) : s.popMove.rspData = s.rspData := rfl
@[simp] theorem State.popMove_known (s : State) : s.popMove.known = s.known := rfl
@[simp] theorem State.popMove_fillLeft (s : State) : s.popMove.fillLeft = s.fillLeft := rfl
@[simp] theorem State.popMove_fillTime (s : State) : s.popMove.fillTime = s.fillTime := rfl
@[simp] theorem State.popMove_offered (s : State) : s.popMove.offered = s.offered := rfl
@[simp] theorem State.popMove_host (s : State) : s.popMove.host = s.host.tail := rfl
@[simp] theorem State.popMove_engine (s : State) : s.popMove.engine = s.engine := rfl
@[simp] theorem State.heldResponse_popMove (s : State) : s.popMove.heldResponse = s.heldResponse := rfl
@[simp] theorem State.takesCommand_popMove (s : State) (p : PortIn) : s.popMove.takesCommand p = s.takesCommand p := rfl
@[simp] theorem State.takenWord_popMove (s : State) (p : PortIn) : s.popMove.takenWord p = s.takenWord p := rfl

theorem State.popMove_of_no_host {s : State} (h : s.host = []) : s.popMove = s := by
  cases s
  cases h
  rfl

theorem State.popMove_of_cons {s : State} {m : HostMove} {rest : List HostMove} (h : s.host = m :: rest) :
    s.popMove = { s with host := rest } := by
  rw [State.popMove, h, List.tail_cons]

theorem State.nextPorts_of_edge {s : State} {p : PortIn} {rest : List HostMove} (h : s.host = .edge p :: rest) :
    s.nextPorts = some p := by
  rw [State.nextPorts, h]

theorem State.nextPorts_of_no_host {s : State} (h : s.host = []) : s.nextPorts = some lowPorts := by
  rw [State.nextPorts, h]

theorem State.nextPorts_of_powerLoss {s : State} {rest : List HostMove} (h : s.host = .powerLoss :: rest) :
    s.nextPorts = none := by
  rw [State.nextPorts, h]

theorem State.commandAt_of_nextPorts {s : State} {p : PortIn} (h : s.nextPorts = some p) :
    s.commandAt = if s.known && s.takesCommand p then some (s.takenWord p) else none := by
  rw [State.commandAt, h]

theorem State.responseAt_of_nextPorts {s : State} {p : PortIn} (h : s.nextPorts = some p) :
    s.responseAt = if s.known && s.givesResponse p then s.heldResponse else none := by
  rw [State.responseAt, h]

theorem State.commandAt_of_powerLoss {s : State} (h : s.nextPorts = none) : s.commandAt = none := by
  rw [State.commandAt, h]

theorem State.responseAt_of_powerLoss {s : State} (h : s.nextPorts = none) : s.responseAt = none := by
  rw [State.responseAt, h]

theorem step_of_powerLoss {s : State} {rest : List HostMove} (h : s.host = .powerLoss :: rest) :
    step s = .next s.popMove.losePower := by
  rw [State.popMove_of_cons h]
  simp [step, h, performMove]

/-- What a step is, by the ports to come: the hang, the edge of those ports, or a loss of power. -/
theorem step_ports_cases (s : State) :
    (s.host = [] ∧ s.known = true ∧ s.rspPending = true ∧ step s = .fault .hang) ∨
    (∃ p, s.nextPorts = some p ∧ step s = clockEdge p s.popMove) ∨
    (s.nextPorts = none ∧ step s = .next s.popMove.losePower) := by
  rcases step_cases s with hang | ⟨hhost, -, hstep⟩ | ⟨p, rest, hhost, hstep⟩ | ⟨rest, hhost, -⟩
  · exact .inl hang
  · exact .inr (.inl ⟨lowPorts, State.nextPorts_of_no_host hhost, by rw [hstep, State.popMove_of_no_host hhost]⟩)
  · exact .inr (.inl ⟨p, State.nextPorts_of_edge hhost, by rw [hstep, State.popMove_of_cons hhost]⟩)
  · exact .inr (.inr ⟨State.nextPorts_of_powerLoss hhost, step_of_powerLoss hhost⟩)

/-- Where the engine does not hang, a step is the edge of the ports to come. -/
theorem step_of_nextPorts {s : State} {p : PortIn} (hports : s.nextPorts = some p)
    (hmove : s.host ≠ [] ∨ s.rspPending = false) : step s = clockEdge p s.popMove := by
  rcases step_ports_cases s with ⟨hhost, -, hpending, -⟩ | ⟨q, hports', hstep⟩ | ⟨hnone, -⟩
  · simp [hhost, hpending] at hmove
  · cases hports.symm.trans hports'
    exact hstep
  · cases hports.symm.trans hnone

/-- What a step that answers a next state was: an edge of the ports to come, or a loss of power. -/
theorem step_next_cases {s t : State} (h : step s = .next t) :
    (∃ p, s.nextPorts = some p ∧ EdgeStep p s.popMove t) ∨ (s.nextPorts = none ∧ t = s.popMove.losePower) := by
  rcases step_ports_cases s with ⟨-, -, -, hstep⟩ | ⟨p, hports, hstep⟩ | ⟨hnone, hstep⟩
  · cases h.symm.trans hstep
  · exact .inl ⟨p, hports, clockEdge_eq_next_iff.1 (hstep.symm.trans h)⟩
  · cases h.symm.trans hstep
    exact .inr ⟨hnone, rfl⟩

theorem step_frame {s t : State} (h : step s = .next t) :
    t.fillTime = s.fillTime ∧ t.engine = s.engine ∧ t.host = s.host.tail := by
  rcases step_next_cases h with ⟨p, -, hedge⟩ | ⟨-, rfl⟩
  · exact hedge.frame
  · exact ⟨rfl, rfl, rfl⟩

/-! ## The invariant of a reset engine -/

/-- The response of a word performed is one of those 30_encoding.md section 4 lists, for the register the word leaves. -/
theorem State.heldSound_commandEdge (s : State) (p : PortIn) : (s.commandEdge p).heldSound := by
  unfold State.heldSound
  rw [State.commandEdge_rspKind, State.commandEdge_rspData, State.commandEdge_crc, txStep]
  cases hdecode : decode (s.takenWord p) with
  | illegal w =>
    obtain rfl := decode_illegal_eq hdecode
    exact .inr (.inr ⟨rfl, _, hdecode, rfl⟩)
  | instr i =>
    cases i with
    | nop => exact .inl ⟨rfl, rfl⟩
    | crcInit => exact .inl ⟨rfl, rfl⟩
    | crcByte b => exact .inl ⟨rfl, rfl⟩
    | crcRead => exact .inr (.inl ⟨rfl, rfl⟩)

/-- A reset engine that holds no response has only its fill to bound. -/
theorem State.inv_of_idle {s : State} (hidle : s.rspPending = false) (hfill : s.fillLeft ≤ s.fillTime) : s.Inv :=
  fun _ => ⟨fun hpending => absurd hpending (by simp [hidle]), hfill⟩

theorem State.inv_of_unknown {s : State} (h : s.known = false) : s.Inv :=
  fun hknown => absurd hknown (by simp [h])

theorem EdgeStep.keeps_inv {p : PortIn} {s t : State} (h : EdgeStep p s t) (hinv : s.Inv) : t.Inv := by
  cases h with
  | reset hrst =>
    apply State.inv_of_idle rfl
    rw [State.resetEdge_fillLeft, State.resetEdge_fillTime]
    split
    case isTrue hknown => exact (hinv hknown).2
    case isFalse => exact Nat.le_refl _
  | release _ hknown => exact State.inv_of_idle rfl (hinv hknown).2
  | wait => exact hinv
  | fill _ hknown => exact State.inv_of_idle rfl ((Nat.sub_le ..).trans (hinv hknown).2)
  | command hknown htakes =>
    obtain ⟨-, -, -, hfill⟩ := State.guards_of_takesCommand htakes
    exact fun _ => ⟨fun _ => ⟨hfill, s.heldSound_commandEdge p⟩, (hinv hknown).2⟩
  | quiet _ hknown => exact State.inv_of_idle rfl (hinv hknown).2

/-- Settles O42: at reset no response is held, and the table is there. -/
theorem invariantHoldsAtReset : Obligations.InvariantHoldsAtReset :=
  State.inv_of_idle rfl (Nat.le_refl 0)

/-- Settles O43: each edge keeps the invariant, and a loss of power leaves an engine of which nothing is claimed. -/
theorem everyStepKeepsTheInvariant : Obligations.EveryStepKeepsTheInvariant := by
  unfold Obligations.EveryStepKeepsTheInvariant
  intro s t hinv hstep
  obtain ⟨hfill, hengine, -⟩ := step_frame hstep
  refine ⟨?inv, hfill, hengine⟩
  rcases step_next_cases hstep with ⟨p, -, hedge⟩ | ⟨-, rfl⟩
  · exact hedge.keeps_inv hinv
  · exact State.inv_of_unknown rfl

/-- A sound response is one the host can read. -/
theorem State.heldResponse_ne_none_of_sound {s : State} (hpending : s.rspPending = true) (hsound : s.heldSound) :
    s.heldResponse ≠ none := by
  have not_reserved : s.rspKind ≠ 0b11 := by
    rcases hsound with ⟨hkind, -⟩ | ⟨hkind, -⟩ | ⟨hkind, -⟩ <;> rw [hkind] <;> decide
  rwa [State.heldResponse_of_pending hpending, Response.ofPorts, Ne, Option.map_eq_none_iff, RspKind.ofCode_none_iff]

/-- An edge of an engine that meets the invariant does not fault. -/
theorem clockEdge_ne_fault_of_inv {s : State} (hinv : s.Inv) (p : PortIn) (f : Fault) :
    clockEdge p s ≠ .fault f := by
  intro hfault
  rcases clockEdge_outcomes p s with ⟨t, hnext, -⟩ | ⟨-, -, hknown, hpending, -, hheld⟩ | ⟨hrefused, -⟩
  · cases hfault.symm.trans hnext
  · obtain ⟨-, hsound⟩ := (hinv hknown).1 hpending
    exact State.heldResponse_ne_none_of_sound hpending hsound hheld
  · cases hfault.symm.trans hrefused

theorem clockEdge_refused {s : State} {p : PortIn} {r : Refusal} (h : clockEdge p s = .refused r) :
    r = .beforeFirstReset ∧ s.known = false := by
  rcases clockEdge_outcomes p s with ⟨t, hnext, -⟩ | ⟨hfault, -⟩ | ⟨hrefused, -, hknown⟩
  · cases h.symm.trans hnext
  · cases h.symm.trans hfault
  · cases h.symm.trans hrefused
    exact ⟨rfl, hknown⟩

theorem step_of_hang {s : State} (hknown : s.known = true) (hpending : s.rspPending = true) (hhost : s.host = []) :
    step s = .fault .hang := by
  simp [step, hhost, hostSilent, hknown, hpending]

/-- Settles O44: an edge never faults where the invariant holds, and it refuses only an engine not reset. -/
theorem onlyAnUntakenResponseStopsTheMachine : Obligations.OnlyAnUntakenResponseStopsTheMachine := by
  unfold Obligations.OnlyAnUntakenResponseStopsTheMachine
  refine fun s hinv => ⟨fun f hfault => ?fault, fun r hrefused => ?refused, step_of_hang⟩
  case fault =>
    rcases step_ports_cases s with ⟨hhost, hknown, hpending, hstep⟩ | ⟨p, -, hstep⟩ | ⟨-, hstep⟩
    · cases hfault.symm.trans hstep
      exact ⟨rfl, hknown, hpending, hhost⟩
    · have hinv' : s.popMove.Inv := hinv
      exact absurd (hstep.symm.trans hfault) (clockEdge_ne_fault_of_inv hinv' p f)
    · cases hfault.symm.trans hstep
  case refused =>
    rcases step_ports_cases s with ⟨-, -, -, hstep⟩ | ⟨p, -, hstep⟩ | ⟨-, hstep⟩
    · cases hrefused.symm.trans hstep
    · obtain ⟨hreason, hknown⟩ := clockEdge_refused (hstep.symm.trans hrefused)
      exact ⟨hreason, hknown⟩
    · cases hrefused.symm.trans hstep

/-! ## The step that takes a command -/

theorem performWord_of_decode {w : CmdWord} {i : Instr} (h : decode w = .instr i) (s : State) :
    performWord w s = exec i s := by
  rw [performWord, h]

/-- The step whose edge takes a command performs the word taken, with the move done and the offer over. -/
theorem step_of_takesCommand {s : State} {p : PortIn} {rest : List HostMove} (hmove : s.host = .edge p :: rest)
    (hknown : s.known = true) (htakes : s.takesCommand p = true) :
    step s = performWord (s.takenWord p) { s with host := rest, offered := [], tick := s.tick + 1 } := by
  rw [step_of_edge hmove]
  exact clockEdge_of_takesCommand (s := { s with host := rest }) hknown htakes

/-- Settles O30: a word performed is the command it decodes to, or the one exception. -/
theorem stepRunsTheDecodedCommand : Obligations.StepRunsTheDecodedCommand := by
  unfold Obligations.StepRunsTheDecodedCommand
  intro s p rest hmove hknown htakes
  rw [step_of_takesCommand hmove hknown htakes]
  refine ⟨fun i _ hdecode => performWord_of_decode hdecode _, fun w hdecode => ?_⟩
  rw [performWord, hdecode]

/-- Settles O31: the word is placed as an offer that a ready engine takes, and it is the only one under that offer. -/
theorem placedWordIsPerformedNext : Obligations.PlacedWordIsPerformedNext := by
  unfold Obligations.PlacedWordIsPerformedNext
  intro s w
  have word_eq : BitVec.ofNat 16 (w.toNat % 2 ^ 16) = w := by
    rw [Nat.mod_eq_of_lt w.isLt, BitVec.ofNat_toNat, BitVec.setWidth_eq]
  rw [State.withFetchWord, word_eq]
  have htakes : (s.offerNext w).takesCommand (offerPorts w) = true := State.takesCommand_of_ready rfl rfl rfl rfl
  have hword : (s.offerNext w).takenWord (offerPorts w) = w := State.takenWord_of_no_offer rfl _
  rw [step_of_takesCommand rfl rfl htakes, hword]
  rfl

theorem State.commandAt_of_takesCommand {s : State} {p : PortIn} (hports : s.nextPorts = some p)
    (hknown : s.known = true) (htakes : s.takesCommand p = true) : s.commandAt = some (s.takenWord p) := by
  rw [State.commandAt_of_nextPorts hports, hknown, htakes, Bool.and_self, if_pos rfl]

/-- Settles O37: a ready engine at an edge that offers a word takes it, whatever the word. -/
theorem readyEngineTakesTheNextOffer : Obligations.ReadyEngineTakesTheNextOffer := by
  unfold Obligations.ReadyEngineTakesTheNextOffer
  intro s p rest hmove hknown hidle hfill hrst hvalid
  have htakes : s.takesCommand p = true := State.takesCommand_of_ready hrst hidle hfill hvalid
  refine ⟨State.commandAt_of_takesCommand (State.nextPorts_of_edge hmove) hknown htakes, ?_⟩
  rw [step_of_takesCommand hmove hknown htakes, performWord_eq_txStep]
  exact ⟨_, rfl, rfl, rfl⟩

/-! ## The word taken (93_implementation_defined.md U3) -/

theorem State.takenWord_mem (s : State) (p : PortIn) : s.takenWord p ∈ s.offered ++ [p.cmd] := by
  rw [State.takenWord]
  split
  case isTrue => exact List.mem_concat_self
  case isFalse =>
    have pick_lt : Config.unstablePick s.engine s.tick % (s.offered.length + 1) < (s.offered ++ [p.cmd]).length := by
      rw [List.length_append]
      exact Nat.mod_lt _ (Nat.succ_pos _)
    rw [List.getD_eq_getElem _ _ pick_lt]
    exact List.getElem_mem pick_lt

/-- Settles O35: the pick is an index into the words offered, and each edge does to the offer what it records of it. -/
theorem takenWordIsAnOfferedWord : Obligations.TakenWordIsAnOfferedWord := by
  unfold Obligations.TakenWordIsAnOfferedWord
  refine ⟨State.takenWord_mem, fun s t p hrst htakes hedge => ?kept, fun s t p htakes hedge => ?taken,
    fun s t p hrst hedge => ?reset⟩
  case kept =>
    rcases clockEdge_of_no_command hrst htakes hedge with rfl | ⟨-, rfl⟩ | rfl | rfl
    · rfl
    · rfl
    · rfl
    · rfl
  case taken =>
    obtain ⟨hrst, hvalid, hidle, hfill⟩ := State.guards_of_takesCommand htakes
    cases clockEdge_eq_next_iff.1 hedge with
    | reset => rfl
    | release _ _ _ hheld => simp [State.heldResponse_of_idle hidle] at hheld
    | wait _ _ _ hpending => simp [hidle] at hpending
    | fill _ _ _ hfilling => exact absurd hfill hfilling
    | command => rfl
    | quiet _ _ _ _ hlow => simp [hvalid] at hlow
  case reset =>
    rw [clockEdge_of_rst hrst] at hedge
    cases hedge
    rfl

/-! ## Power loss (60_exceptions.md R99) and the reserved kind (30_encoding.md R57) -/

/-- Settles O40: a loss of power, an edge refused, and the reset that ends it. -/
theorem powerLossIsUnknownUntilReset : Obligations.PowerLossIsUnknownUntilReset := by
  unfold Obligations.PowerLossIsUnknownUntilReset
  refine ⟨fun s rest hmove => ⟨?no_command, _, step_of_powerLoss hmove, rfl, ?moves⟩,
    fun s p hknown hrst => clockEdge_of_unknown hrst hknown, fun s p hknown hrst => ?reset⟩
  case no_command => exact State.commandAt_of_powerLoss (State.nextPorts_of_powerLoss hmove)
  case moves => rw [State.losePower_host, State.popMove_host, hmove, List.tail_cons]
  case reset =>
    refine ⟨_, clockEdge_of_rst hrst s, rfl, rfl, rfl, ?_⟩
    rw [State.resetEdge_fillLeft, hknown]
    rfl

theorem RspKind.code_ne_reserved (k : RspKind) : k.code ≠ 0b11 := by
  cases k <;> decide

/-- What is held is unreadable exactly where its kind is the reserved one. -/
theorem State.heldResponse_eq_none_iff {s : State} (hpending : s.rspPending = true) :
    s.heldResponse = none ↔ s.rspKind = 0b11 := by
  rw [State.heldResponse_of_pending hpending, Response.ofPorts, Option.map_eq_none_iff, RspKind.ofCode_none_iff]

/-- Settles O41: `Step` answers with a kind of the three, and the host's reading fails for the fourth code only. -/
theorem reservedKindIsNeverProduced : Obligations.ReservedKindIsNeverProduced := by
  unfold Obligations.ReservedKindIsNeverProduced
  refine ⟨fun w s t hperform => ?produced, fun s p hknown hpending hrst hready => ?faults, fun d => rfl⟩
  case produced =>
    rw [performWord_eq_txStep] at hperform
    cases hperform
    exact RspKind.code_ne_reserved _
  case faults =>
    rw [← State.heldResponse_eq_none_iff hpending]
    cases hheld : s.heldResponse with
    | none => simp [clockEdge_of_unreadable hrst hknown hpending hready hheld]
    | some r => simp [clockEdge_of_rspReady hknown hrst hready hheld]

end Sys2Proof.Machine
end

section
/-! Runs at the ports (70_reset_and_hazards.md R103 to R110): one step with the command it takes and the response the host has at it,
and from it, by one induction on the steps each, what a run takes, answers and shows. -/

namespace Sys2Proof.Machine

/-! ## One step of a run, with its command and its response -/

/-- A step that answers a next state, with what `commandAt` and `responseAt` record of it: a case for each kind of move. -/
inductive RunStep (s : State) : Option CmdWord → Option Response → State → Prop
  | powerLoss (hmove : s.nextPorts = none) : RunStep s none none s.popMove.losePower
  | reset {p : PortIn} (hports : s.nextPorts = some p) (hrst : p.rst = true) :
      RunStep s none s.responseAt (s.popMove.resetEdge p)
  | command {p : PortIn} (hports : s.nextPorts = some p) (hknown : s.known = true) (htakes : s.takesCommand p = true) :
      RunStep s (some (s.takenWord p)) none (s.popMove.commandEdge p)
  | release {p : PortIn} {r : Response} (hports : s.nextPorts = some p) (hknown : s.known = true)
      (hready : p.rspReady = true) (hheld : s.heldResponse = some r) : RunStep s none (some r) (s.popMove.releaseEdge p)
  | wait {p : PortIn} (hports : s.nextPorts = some p) (hknown : s.known = true) (hpending : s.rspPending = true) :
      RunStep s none none (s.popMove.waitEdge p)
  | fill {p : PortIn} (hports : s.nextPorts = some p) (hknown : s.known = true) (hidle : s.rspPending = false)
      (hfill : s.fillLeft ≠ 0) : RunStep s none none (s.popMove.fillEdge p)
  | quiet {p : PortIn} (hports : s.nextPorts = some p) (hknown : s.known = true) (hidle : s.rspPending = false)
      (hfill : s.fillLeft = 0) (hvalid : p.cmdValid = false) : RunStep s none none (s.popMove.quietEdge p)

theorem State.commandAt_eq_none {s : State} {p : PortIn} (hports : s.nextPorts = some p)
    (htakes : s.takesCommand p = false) : s.commandAt = none := by
  rw [State.commandAt_of_nextPorts hports, htakes, Bool.and_false]
  rfl

theorem State.responseAt_eq_none_of_not_rspReady {s : State} {p : PortIn} (hports : s.nextPorts = some p)
    (hready : p.rspReady = false) : s.responseAt = none := by
  simp [State.responseAt_of_nextPorts hports, State.givesResponse, hready]

theorem State.responseAt_eq_none_of_idle {s : State} (hidle : s.rspPending = false) : s.responseAt = none := by
  cases hports : s.nextPorts with
  | none => exact State.responseAt_of_powerLoss hports
  | some p => simp [State.responseAt_of_nextPorts hports, State.givesResponse, State.rspValid, hidle]

theorem State.responseAt_of_rspReady {s : State} {p : PortIn} {r : Response} (hports : s.nextPorts = some p)
    (hknown : s.known = true) (hready : p.rspReady = true) (hheld : s.heldResponse = some r) :
    s.responseAt = some r := by
  have hpending : s.rspPending = true := State.rspPending_of_heldResponse hheld
  simp [State.responseAt_of_nextPorts hports, State.givesResponse, State.rspValid, hknown, hready, hpending, hheld]

/-- The host has a response only of a reset engine that holds one. -/
theorem State.known_pending_of_responseAt {s : State} {r : Response} (h : s.responseAt = some r) :
    s.known = true ∧ s.rspPending = true := by
  cases hports : s.nextPorts with
  | none => simp [State.responseAt_of_powerLoss hports] at h
  | some p =>
    rw [State.responseAt_of_nextPorts hports] at h
    split at h
    case isTrue hgives =>
      exact ⟨(Bool.and_eq_true_iff.1 hgives).1, State.rspPending_of_heldResponse h⟩
    case isFalse => cases h

theorem runStep_of_step {s t : State} (h : step s = .next t) :
    ∃ c r, s.commandAt = c ∧ s.responseAt = r ∧ RunStep s c r t := by
  rcases step_next_cases h with ⟨p, hports, hedge⟩ | ⟨hmove, rfl⟩
  · cases hedge with
    | reset hrst =>
      exact ⟨_, _, State.commandAt_eq_none hports (State.takesCommand_eq_false_of_rst hrst s), rfl, .reset hports hrst⟩
    | release hrst hknown hready hheld =>
      have hpending : s.rspPending = true := State.rspPending_of_heldResponse hheld
      exact ⟨_, _, State.commandAt_eq_none hports (State.takesCommand_eq_false_of_pending hpending p),
        State.responseAt_of_rspReady hports hknown hready hheld, .release hports hknown hready hheld⟩
    | wait hrst hknown hready hpending =>
      exact ⟨_, _, State.commandAt_eq_none hports (State.takesCommand_eq_false_of_pending hpending p),
        State.responseAt_eq_none_of_not_rspReady hports hready, .wait hports hknown hpending⟩
    | fill hrst hknown hidle hfill =>
      exact ⟨_, _, State.commandAt_eq_none hports (State.takesCommand_eq_false_of_fill hfill p),
        State.responseAt_eq_none_of_idle hidle, .fill hports hknown hidle hfill⟩
    | command hknown htakes =>
      obtain ⟨-, -, hidle, -⟩ := State.guards_of_takesCommand htakes
      exact ⟨_, _, State.commandAt_of_takesCommand hports hknown htakes, State.responseAt_eq_none_of_idle hidle,
        .command hports hknown htakes⟩
    | quiet hrst hknown hidle hfill hvalid =>
      exact ⟨_, _, State.commandAt_eq_none hports (State.takesCommand_eq_false_of_not_cmdValid hvalid s),
        State.responseAt_eq_none_of_idle hidle, .quiet hports hknown hidle hfill hvalid⟩
  · exact ⟨_, _, State.commandAt_of_powerLoss hmove, State.responseAt_of_powerLoss hmove, .powerLoss hmove⟩

theorem runSteps_succ_eq_next_iff {k : Nat} {s t : State} :
    runSteps (k + 1) s = .next t ↔ ∃ u, step s = .next u ∧ runSteps k u = .next t := by
  rw [runSteps]
  cases step s <;> simp

/-- Steps in two parts. -/
theorem runSteps_add_of_next {j : Nat} {s t : State} (h : runSteps j s = .next t) (k : Nat) :
    runSteps (j + k) s = runSteps k t := by
  induction j generalizing s with
  | zero =>
    cases h
    rw [Nat.zero_add]
  | succ j ih =>
    obtain ⟨u, hstep, hrun⟩ := runSteps_succ_eq_next_iff.1 h
    rw [Nat.succ_add, runSteps_succ_of_next hstep, ih hrun]

/-! ## The hang (60_exceptions.md R91) -/

/-- A move that leaves a held response where it is, is one edge of waiting. -/
theorem step_of_ignoresResponse {s : State} {m : HostMove} {rest : List HostMove} (hhost : s.host = m :: rest)
    (hm : m.ignoresResponse = true) (hknown : s.known = true) (hpending : s.rspPending = true) :
    ∃ p, step s = .next (s.popMove.waitEdge p) ∧ s.commandAt = none := by
  cases m with
  | powerLoss => cases hm
  | edge p =>
    rw [HostMove.ignoresResponse, Bool.and_eq_true, Bool.not_eq_true', Bool.not_eq_true'] at hm
    obtain ⟨hrst, hready⟩ := hm
    refine ⟨p, ?_, State.commandAt_eq_none (State.nextPorts_of_edge hhost) (State.takesCommand_eq_false_of_pending hpending p)⟩
    rw [step_of_nextPorts (State.nextPorts_of_edge hhost) (.inl (by simp [hhost]))]
    exact clockEdge_of_not_rspReady hknown hrst hready hpending

/-- While the response is left alone, no command is taken and the engine stays as it is. -/
theorem run_of_ignored_response {k : Nat} {s : State} (hknown : s.known = true) (hpending : s.rspPending = true)
    (hk : k ≤ s.host.length) (hmoves : ∀ m ∈ s.host.take k, m.ignoresResponse = true) :
    commandsTaken k s = [] ∧ ∃ t, runSteps k s = .next t ∧ t.crc = s.crc ∧ t.known = true ∧ t.rspPending = true ∧
      t.rspKind = s.rspKind ∧ t.rspData = s.rspData ∧ t.host = s.host.drop k := by
  induction k generalizing s with
  | zero => exact ⟨rfl, s, rfl, rfl, hknown, hpending, rfl, rfl, rfl⟩
  | succ k ih =>
    cases hhost : s.host with
    | nil => simp [hhost] at hk
    | cons m rest =>
      rw [hhost, List.take_succ_cons] at hmoves
      obtain ⟨hm, hrest⟩ := List.forall_mem_cons.1 hmoves
      obtain ⟨p, hstep, hcommand⟩ := step_of_ignoresResponse hhost hm hknown hpending
      have host_eq : (s.popMove.waitEdge p).host = rest := by
        rw [State.waitEdge_host, State.popMove_host, hhost, List.tail_cons]
      have hk' : k ≤ (s.popMove.waitEdge p).host.length := by simpa [host_eq, hhost] using hk
      obtain ⟨hcommands, t, hrun, hcrc, hknown', hpending', hkind, hdata, hhost'⟩ :=
        ih (s := s.popMove.waitEdge p) hknown hpending hk' (by rwa [host_eq])
      rw [commandsTaken_succ_of_next hstep, hcommand, hcommands, runSteps_succ_of_next hstep, List.drop_succ_cons]
      exact ⟨rfl, t, hrun, hcrc, hknown', hpending', hkind, hdata, by rw [hhost', host_eq]⟩

/-- Settles O38: the response waits through the moves, and the list's end is the hang. -/
theorem untakenResponseHangsTheEngine : Obligations.UntakenResponseHangsTheEngine := by
  unfold Obligations.UntakenResponseHangsTheEngine
  refine ⟨fun s k => run_of_ignored_response, fun s hknown hpending hmoves => ?hangs,
    fun s p hrst => ⟨_, clockEdge_of_rst hrst s, rfl⟩⟩
  obtain ⟨-, t, hrun, -, hknown', hpending', -, -, hhost⟩ :=
    run_of_ignored_response hknown hpending (Nat.le_refl _) (by rwa [List.take_length])
  rw [List.drop_length] at hhost
  rw [runSteps_add_of_next hrun, runSteps, step_of_hang hknown' hpending' hhost]

/-! ## The fill (70_reset_and_hazards.md R103) -/

/-- The next of moves without reset is an edge without reset, the ports staying low after the last one. -/
theorem nextPorts_of_noReset {s : State} {k : Nat} (h : ∀ m ∈ s.host.take (k + 1), m.noReset = true) :
    (∃ p, s.nextPorts = some p ∧ p.rst = false) ∧ ∀ m ∈ s.host.tail.take k, m.noReset = true := by
  cases hhost : s.host with
  | nil => exact ⟨⟨lowPorts, State.nextPorts_of_no_host hhost, rfl⟩, by simp⟩
  | cons m rest =>
    rw [hhost, List.take_succ_cons] at h
    obtain ⟨hm, hrest⟩ := List.forall_mem_cons.1 h
    cases m with
    | powerLoss => cases hm
    | edge p => exact ⟨⟨p, State.nextPorts_of_edge hhost, by simpa [HostMove.noReset] using hm⟩, hrest⟩

/-- While the fill goes on, no command is taken and the register is kept. -/
theorem run_of_fill {k : Nat} {s : State} (hknown : s.known = true) (hidle : s.rspPending = false)
    (hk : k ≤ s.fillLeft) (hmoves : ∀ m ∈ s.host.take k, m.noReset = true) :
    commandsTaken k s = [] ∧ ∃ t, runSteps k s = .next t ∧ t.fillLeft = s.fillLeft - k ∧ t.crc = s.crc ∧
      t.known = true ∧ t.rspPending = false ∧ t.host = s.host.drop k := by
  induction k generalizing s with
  | zero => exact ⟨rfl, s, rfl, rfl, rfl, hknown, hidle, rfl⟩
  | succ k ih =>
    obtain ⟨⟨p, hports, hrst⟩, hrest⟩ := nextPorts_of_noReset hmoves
    have hfill : s.fillLeft ≠ 0 := Nat.ne_zero_of_lt hk
    have hstep : step s = .next (s.popMove.fillEdge p) := by
      rw [step_of_nextPorts hports (.inr hidle)]
      exact clockEdge_of_fill hrst hknown hidle hfill
    have hcommand : s.commandAt = none :=
      State.commandAt_eq_none hports (State.takesCommand_eq_false_of_fill hfill p)
    obtain ⟨hcommands, t, hrun, hleft, hcrc, hknown', hidle', hhost⟩ :=
      ih (s := s.popMove.fillEdge p) hknown rfl (Nat.le_sub_one_of_lt hk) hrest
    rw [commandsTaken_succ_of_next hstep, hcommand, hcommands, runSteps_succ_of_next hstep, ← List.drop_tail]
    exact ⟨rfl, t, hrun, by rw [hleft, State.fillEdge_fillLeft, State.popMove_fillLeft, Nat.sub_sub, Nat.add_comm],
      hcrc, hknown', hidle', hhost⟩

/-- Settles O39: each edge of the fill counts down by one, and a reset of a known engine keeps the count. -/
theorem fillKeepsCommandsWaiting : Obligations.FillKeepsCommandsWaiting := by
  unfold Obligations.FillKeepsCommandsWaiting
  have kept (s : State) (p : PortIn) (hknown : s.known = true) : (s.resetEdge p).fillLeft = s.fillLeft := by
    rw [State.resetEdge_fillLeft, hknown, if_pos rfl]
  refine ⟨fun s k => run_of_fill, fun s p hrst hknown hfill => ?filled, fun s p hrst hknown => ?midfill⟩
  case filled => exact ⟨_, clockEdge_of_rst hrst s, (State.tableAvailable_iff _).2 ((kept s p hknown).trans hfill)⟩
  case midfill => exact ⟨_, clockEdge_of_rst hrst s, kept s p hknown⟩

/-! ## Refinement of the transaction level (R107) -/

/-- A step without reset does to register and responses what `Run` does on the command it takes, if it takes one: what was held
before, and what the command answers, is what the host has at the step and what is held after. -/
theorem step_refines_txRun {s t : State} {p : PortIn} (hknown : s.known = true) (hports : s.nextPorts = some p)
    (hrst : p.rst = false) (hstep : step s = .next t) :
    t.known = true ∧ t.crc = (txRun s.crc s.commandAt.toList).1 ∧
    s.heldResponse.toList ++ (txRun s.crc s.commandAt.toList).2 = s.responseAt.toList ++ t.heldResponse.toList := by
  obtain ⟨c, r, hcommand, hresponse, hcase⟩ := runStep_of_step hstep
  rw [hcommand, hresponse]
  cases hcase with
  | powerLoss hnone => cases hports.symm.trans hnone
  | reset hports' hrst' =>
    cases hports.symm.trans hports'
    simp [hrst] at hrst'
  | command _ _ htakes =>
    obtain ⟨-, -, hidle, -⟩ := State.guards_of_takesCommand htakes
    refine ⟨hknown, rfl, ?_⟩
    rw [State.heldResponse_of_idle hidle, State.heldResponse_commandEdge]
    rfl
  | release _ _ _ hheld =>
    refine ⟨hknown, rfl, ?_⟩
    rw [hheld, State.heldResponse_of_idle (State.releaseEdge_rspPending ..)]
    rfl
  | wait => exact ⟨hknown, rfl, List.append_nil _⟩
  | fill _ _ hidle =>
    refine ⟨hknown, rfl, ?_⟩
    rw [State.heldResponse_of_idle hidle, State.heldResponse_of_idle (State.fillEdge_rspPending ..)]
    rfl
  | quiet _ _ hidle =>
    refine ⟨hknown, rfl, ?_⟩
    rw [State.heldResponse_of_idle hidle, State.heldResponse_of_idle (State.quietEdge_rspPending ..)]
    rfl

/-- A run without reset is `Run` on the commands it takes, with the response held before it and the one held after it. -/
theorem run_refines_txRun {k : Nat} {s t : State} (hknown : s.known = true)
    (hmoves : ∀ m ∈ s.host.take k, m.noReset = true) (hrun : runSteps k s = .next t) :
    t.crc = (txRun s.crc (commandsTaken k s)).1 ∧
    s.heldResponse.toList ++ (txRun s.crc (commandsTaken k s)).2 = responsesTaken k s ++ t.heldResponse.toList := by
  induction k generalizing s with
  | zero =>
    cases hrun
    exact ⟨rfl, List.append_nil _⟩
  | succ k ih =>
    obtain ⟨u, hstep, hrun'⟩ := runSteps_succ_eq_next_iff.1 hrun
    obtain ⟨⟨p, hports, hrst⟩, hrest⟩ := nextPorts_of_noReset hmoves
    obtain ⟨hknown', hcrc, hresponses⟩ := step_refines_txRun hknown hports hrst hstep
    obtain ⟨-, -, hhost⟩ := step_frame hstep
    obtain ⟨hcrc', hresponses'⟩ := ih hknown' (by rwa [hhost]) hrun'
    rw [commandsTaken_succ_of_next hstep, responsesTaken_succ_of_next hstep, txRun_append, ← hcrc]
    refine ⟨hcrc', ?_⟩
    rw [← List.append_assoc, hresponses, List.append_assoc, hresponses', List.append_assoc]

/-- Settles O45: a run that begins with no response held has nothing before the responses of `Run`. -/
theorem portRunsRefineTransactionRuns : Obligations.PortRunsRefineTransactionRuns := by
  unfold Obligations.PortRunsRefineTransactionRuns
  intro k s t hknown hidle hmoves hrun
  obtain ⟨hcrc, hresponses⟩ := run_refines_txRun hknown hmoves hrun
  rw [State.heldResponse_of_idle hidle, Option.toList_none, List.nil_append] at hresponses
  refine ⟨Prod.ext hcrc.symm hresponses, fun hended => Prod.ext hcrc.symm ?_⟩
  rwa [State.heldResponse_of_idle hended, Option.toList_none, List.append_nil] at hresponses

end Sys2Proof.Machine
end

section
/-! What the host has seen of a run, and its observation (70_reset_and_hazards.md R108, R110): how many responses it still awaits after
any moves, where it stands in a run without reset, and that every host that keeps its duties observes `Run`. -/

namespace Sys2Proof.Machine

/-! ## What one step does to the host's view -/

theorem State.viewAfter_awaiting (s : State) (v : HostView) :
    (s.viewAfter v).awaiting = v.awaiting + s.commandAt.toList.length - s.responseAt.toList.length := by
  rw [State.viewAfter]
  cases hports : s.nextPorts with
  | none => rw [State.commandAt_of_powerLoss hports, State.responseAt_of_powerLoss hports]; rfl
  | some p => rfl

theorem State.viewAfter_crc (s : State) (v : HostView) :
    (s.viewAfter v).crc = if s.responseAt.isSome then some s.crc else v.crc := by
  rw [State.viewAfter]
  cases hports : s.nextPorts with
  | none => rw [State.responseAt_of_powerLoss hports]; rfl
  | some p => rfl

theorem State.viewAfter_offering {s : State} {p : PortIn} (hports : s.nextPorts = some p) (v : HostView) :
    (s.viewAfter v).offering = (p.cmdValid && s.commandAt.isNone) := by
  rw [State.viewAfter, hports]

/-- The responses of a run in two parts. -/
theorem responsesTaken_add_of_next {j : Nat} {s t : State} (h : runSteps j s = .next t) (k : Nat) :
    responsesTaken (j + k) s = responsesTaken j s ++ responsesTaken k t := by
  induction j generalizing s with
  | zero =>
    cases h
    rw [Nat.zero_add]
    rfl
  | succ j ih =>
    obtain ⟨u, hstep, hrun⟩ := runSteps_succ_eq_next_iff.1 h
    rw [Nat.succ_add, responsesTaken_succ_of_next hstep, responsesTaken_succ_of_next hstep, ih hrun, List.append_assoc]

/-- The host's view of a run in two parts. -/
theorem hostView_add_of_next {j : Nat} {s t : State} (h : runSteps j s = .next t) (k : Nat) (v : HostView) :
    hostView (j + k) v s = hostView k (hostView j v s) t := by
  induction j generalizing s v with
  | zero =>
    cases h
    rw [Nat.zero_add]
    rfl
  | succ j ih =>
    obtain ⟨u, hstep, hrun⟩ := runSteps_succ_eq_next_iff.1 h
    rw [Nat.succ_add, hostView_succ_of_next hstep, hostView_succ_of_next hstep, ih hrun]

/-- A run has an observation where it ended with a register to show. -/
theorem observe_of_ended {k : Nat} {s t : State} {c : Word32} (hrun : runSteps k s = .next t)
    (hended : (hostView k s.startView s).ended t = true) (hcrc : (hostView k s.startView s).crc = some c) :
    observe k s = some ⟨responsesTaken k s, c⟩ := by
  simp only [observe, hrun, hended, hcrc, if_true, Option.map_some]

/-- What an observation says of its run. -/
theorem ended_of_observe {k : Nat} {s : State} {o : Observation} (h : observe k s = some o) :
    ∃ t, runSteps k s = .next t ∧ (hostView k s.startView s).ended t = true ∧
      (hostView k s.startView s).crc = some o.crc ∧ o.responses = responsesTaken k s := by
  rw [observe] at h
  cases hrun : runSteps k s with
  | fault f => simp [hrun] at h
  | refused r => simp [hrun] at h
  | next t =>
    simp only [hrun] at h
    split_ifs at h with hended
    obtain ⟨c, hcrc, rfl⟩ := Option.map_eq_some_iff.1 h
    exact ⟨t, rfl, hended, hcrc, rfl⟩

theorem HostView.ended_iff (v : HostView) (t : State) :
    v.ended t = true ↔ t.host = [] ∧ v.offering = false ∧ v.awaiting = 0 := by
  simp [HostView.ended, and_assoc]

/-! ## The responses the host awaits, whatever the moves -/

/-- A response that is held is one the host awaits. A response that a reset or a power loss discards is still awaited, so there
may be more. -/
def HostView.AwaitsHeld (v : HostView) (s : State) : Prop :=
  s.known = true → s.rspPending = true → 1 ≤ v.awaiting

theorem HostView.awaitsHeld_of_idle {s : State} (h : s.rspPending = false) (v : HostView) : v.AwaitsHeld s :=
  fun _ hpending => absurd hpending (by simp [h])

theorem State.startView_awaitsHeld (s : State) : s.startView.AwaitsHeld s := by
  intro hknown hpending
  simp [State.startView, hknown, hpending]

theorem awaitsHeld_viewAfter {s t : State} {v : HostView} (hstep : step s = .next t) (hv : v.AwaitsHeld s) :
    (s.viewAfter v).AwaitsHeld t := by
  have hawaiting := s.viewAfter_awaiting v
  obtain ⟨c, r, hcommand, hresponse, hcase⟩ := runStep_of_step hstep
  rw [hcommand, hresponse] at hawaiting
  cases hcase with
  | powerLoss => exact fun hknown => absurd hknown (by simp)
  | reset => exact HostView.awaitsHeld_of_idle rfl _
  | command => exact fun _ _ => by rw [hawaiting]; exact Nat.le_add_left 1 v.awaiting
  | release => exact HostView.awaitsHeld_of_idle rfl _
  | wait => exact fun hknown hpending => by rw [hawaiting]; exact hv hknown hpending
  | fill => exact HostView.awaitsHeld_of_idle rfl _
  | quiet => exact HostView.awaitsHeld_of_idle rfl _

theorem awaitsHeld_hostView {k : Nat} {s t : State} {v : HostView} (hrun : runSteps k s = .next t)
    (hv : v.AwaitsHeld s) : (hostView k v s).AwaitsHeld t := by
  induction k generalizing s v with
  | zero =>
    cases hrun
    exact hv
  | succ k ih =>
    obtain ⟨u, hstep, hrun'⟩ := runSteps_succ_eq_next_iff.1 hrun
    rw [hostView_succ_of_next hstep]
    exact ih hrun' (awaitsHeld_viewAfter hstep hv)

/-- No response comes unawaited: it is one held, so the subtraction in `viewAfter` is exact. -/
theorem awaiting_viewAfter_add {s : State} {v : HostView} (hv : v.AwaitsHeld s) :
    (s.viewAfter v).awaiting + s.responseAt.toList.length = v.awaiting + s.commandAt.toList.length := by
  rw [State.viewAfter_awaiting]
  cases hresponse : s.responseAt with
  | none => rfl
  | some r =>
    obtain ⟨hknown, hpending⟩ := State.known_pending_of_responseAt hresponse
    have awaited := hv hknown hpending
    rw [Option.toList_some, List.length_singleton]
    omega

/-- Each command adds one response awaited, and each response taken ends one. -/
theorem awaiting_hostView_add {k : Nat} {s t : State} {v : HostView} (hrun : runSteps k s = .next t)
    (hv : v.AwaitsHeld s) :
    (hostView k v s).awaiting + (responsesTaken k s).length = v.awaiting + (commandsTaken k s).length := by
  induction k generalizing s v with
  | zero => rfl
  | succ k ih =>
    obtain ⟨u, hstep, hrun'⟩ := runSteps_succ_eq_next_iff.1 hrun
    have here := awaiting_viewAfter_add hv
    have rest := ih hrun' (awaitsHeld_viewAfter hstep hv)
    rw [hostView_succ_of_next hstep, responsesTaken_succ_of_next hstep, commandsTaken_succ_of_next hstep,
      List.length_append, List.length_append]
    omega

/-- Until the host has a response, it has no other register to show than the one it began with. -/
theorem crc_hostView_of_no_response {k : Nat} {s : State} {v : HostView} (h : responsesTaken k s = []) :
    (hostView k v s).crc = v.crc := by
  have kept {s : State} (v : HostView) (hnone : s.responseAt = none) : (s.viewAfter v).crc = v.crc := by
    rw [State.viewAfter_crc, hnone]
    rfl
  induction k generalizing s v with
  | zero => rfl
  | succ k ih =>
    rw [responsesTaken, List.append_eq_nil_iff, Option.toList_eq_nil_iff] at h
    obtain ⟨hnone, hrest⟩ := h
    rw [hostView]
    cases hstep : step s with
    | next t =>
      rw [hstep] at hrest
      exact (ih hrest).trans (kept v hnone)
    | fault f => exact kept v hnone
    | refused r => exact kept v hnone

/-! ## Runs without reset -/

/-- Where a run without reset stands, the host sees: a word on offer, the one response held, and, with none held, the register. -/
structure HostView.Tracks (v : HostView) (s : State) : Prop where
  offering : v.offering = !s.offered.isEmpty
  awaiting : v.awaiting = if s.rspPending then 1 else 0
  crc : s.rspPending = false → v.crc = some s.crc

theorem State.startView_tracks {s : State} (hknown : s.known = true) : s.startView.Tracks s where
  offering := rfl
  awaiting := by simp [State.startView, hknown]
  crc _ := by simp [State.startView, hknown]

/-- The offer that an edge records is the one the host sees. -/
theorem isEmpty_offer (s : State) (p : PortIn) :
    (if p.cmdValid then s.offered ++ [p.cmd] else []).isEmpty = !p.cmdValid := by
  cases p.cmdValid <;> simp

theorem tracks_viewAfter {s t : State} {p : PortIn} {v : HostView} (hports : s.nextPorts = some p)
    (hrst : p.rst = false) (hstep : step s = .next t) (hv : v.Tracks s) : (s.viewAfter v).Tracks t := by
  obtain ⟨-, hawaiting, hcrc⟩ := hv
  have hoffering' := State.viewAfter_offering hports v
  have hawaiting' := s.viewAfter_awaiting v
  have hcrc' := s.viewAfter_crc v
  obtain ⟨c, r, hcommand, hresponse, hcase⟩ := runStep_of_step hstep
  rw [hcommand] at hoffering' hawaiting'
  rw [hresponse] at hawaiting' hcrc'
  cases hcase with
  | powerLoss hnone => cases hports.symm.trans hnone
  | reset hports' hrst' =>
    cases hports.symm.trans hports'
    simp [hrst] at hrst'
  | command _ _ htakes =>
    obtain ⟨-, -, hidle, -⟩ := State.guards_of_takesCommand htakes
    refine ⟨by rw [hoffering']; simp, ?_, nofun⟩
    rw [hawaiting', hawaiting, hidle]
    rfl
  | release hports' _ _ hheld =>
    cases hports.symm.trans hports'
    have hpending : s.rspPending = true := State.rspPending_of_heldResponse hheld
    refine ⟨by rw [hoffering', State.releaseEdge_offered, isEmpty_offer]; simp, ?_, fun _ => hcrc'⟩
    rw [hawaiting', hawaiting, hpending]
    rfl
  | wait hports' _ hpending =>
    cases hports.symm.trans hports'
    refine ⟨by rw [hoffering', State.waitEdge_offered, isEmpty_offer]; simp, hawaiting'.trans hawaiting, fun hidle => ?_⟩
    simp [hpending] at hidle
  | fill hports' _ hidle =>
    cases hports.symm.trans hports'
    refine ⟨by rw [hoffering', State.fillEdge_offered, isEmpty_offer]; simp, ?_, fun _ => hcrc'.trans (hcrc hidle)⟩
    rw [hawaiting', hawaiting, hidle]
    rfl
  | quiet hports' _ hidle =>
    cases hports.symm.trans hports'
    refine ⟨by rw [hoffering', State.quietEdge_offered, isEmpty_offer]; simp, ?_, fun _ => hcrc'.trans (hcrc hidle)⟩
    rw [hawaiting', hawaiting, hidle]
    rfl

theorem tracks_hostView {k : Nat} {s t : State} {v : HostView} (hmoves : ∀ m ∈ s.host.take k, m.noReset = true)
    (hrun : runSteps k s = .next t) (hv : v.Tracks s) : (hostView k v s).Tracks t := by
  induction k generalizing s v with
  | zero =>
    cases hrun
    exact hv
  | succ k ih =>
    obtain ⟨u, hstep, hrun'⟩ := runSteps_succ_eq_next_iff.1 hrun
    obtain ⟨⟨p, hports, hrst⟩, hrest⟩ := nextPorts_of_noReset hmoves
    obtain ⟨-, -, hhost⟩ := step_frame hstep
    rw [hostView_succ_of_next hstep]
    exact ih (by rwa [hhost]) hrun' (tracks_viewAfter hports hrst hstep hv)

/-- A run without reset that leaves nothing to do, from a state with no response held, is observed as `Run` on its commands. -/
theorem observe_of_run {k : Nat} {s t : State} (hknown : s.known = true) (hidle : s.rspPending = false)
    (hmoves : ∀ m ∈ s.host.take k, m.noReset = true) (hrun : runSteps k s = .next t) (hhost : t.host = [])
    (hoffered : t.offered = []) (hidle' : t.rspPending = false) :
    observe k s = some ⟨(txRun s.crc (commandsTaken k s)).2, (txRun s.crc (commandsTaken k s)).1⟩ := by
  obtain ⟨hoffering, hawaiting, hcrc⟩ := tracks_hostView hmoves hrun (State.startView_tracks hknown)
  have hended : (hostView k s.startView s).ended t = true := by
    rw [HostView.ended_iff, hoffering, hawaiting, hoffered, hidle']
    exact ⟨hhost, rfl, rfl⟩
  obtain ⟨-, hrefined⟩ := portRunsRefineTransactionRuns k s t hknown hidle hmoves hrun
  rw [observe_of_ended hrun hended (hcrc hidle'), hrefined hidle']

/-! ## Hosts that keep their duties (R110) -/

/-- An engine that serves a dutiful host: reset, with a response the host can read if any, and with no other word under the offer
than the next one of those to issue. -/
structure State.Serves (s : State) (ws : List CmdWord) : Prop where
  known : s.known = true
  readable : s.rspPending = true → s.heldResponse ≠ none
  offer : ∀ w ∈ s.offered, ws.head? = some w

theorem State.Serves.step_exists {s : State} {ws : List CmdWord} {p : PortIn} {rest : List HostMove}
    (hs : s.Serves ws) (hhost : s.host = .edge p :: rest) : ∃ t, step s = .next t := by
  rw [step_of_nextPorts (State.nextPorts_of_edge hhost) (.inl (by simp [hhost]))]
  rcases clockEdge_outcomes p s.popMove with ⟨t, hnext, -⟩ | ⟨-, -, -, hpending, -, hheld⟩ | ⟨-, -, hunknown⟩
  · exact ⟨t, hnext⟩
  · exact absurd hheld (hs.readable hpending)
  · exact absurd hs.known (by simpa using hunknown)

/-- A word that the host goes on offering is still the next one to issue. -/
theorem State.Serves.offer_kept {s : State} {ws : List CmdWord} {p : PortIn} (hs : s.Serves ws)
    (hw : p.cmdValid = true → ws.head? = some p.cmd) :
    ∀ w ∈ (if p.cmdValid then s.offered ++ [p.cmd] else []), ws.head? = some w := by
  split
  case isTrue hvalid => simpa [or_imp, forall_and] using ⟨hs.offer, hw hvalid⟩
  case isFalse => simp

/-- One edge of a dutiful host: the engine goes on serving the words that are left. -/
theorem State.Serves.step {s t : State} {ws : List CmdWord} {p : PortIn} (hs : s.Serves ws)
    (hports : s.nextPorts = some p) (hrst : p.rst = false) (hw : p.cmdValid = true → ws.head? = some p.cmd)
    (hstep : step s = .next t) :
    t.Serves (if s.takesCommand p then ws.tail else ws) ∧
      s.commandAt.toList ++ (if s.takesCommand p then ws.tail else ws) = ws := by
  obtain ⟨c, r, hcommand, -, hcase⟩ := runStep_of_step hstep
  have not_taken (h : s.commandAt = none) : s.takesCommand p = false := by
    simpa [State.commandAt_of_nextPorts hports, hs.known] using h
  cases hcase with
  | powerLoss hnone => cases hports.symm.trans hnone
  | reset hports' hrst' =>
    cases hports.symm.trans hports'
    simp [hrst] at hrst'
  | command hports' _ htakes =>
    cases hports.symm.trans hports'
    obtain ⟨-, hvalid, -, -⟩ := State.guards_of_takesCommand htakes
    have hhead := hw hvalid
    have hstable : s.takenWord p = p.cmd :=
      State.takenWord_of_stable fun w hmem => Option.some.inj ((hs.offer w hmem).symm.trans hhead)
    obtain ⟨ws', rfl⟩ := List.head?_eq_some_iff.1 hhead
    rw [hcommand, if_pos htakes, hstable]
    exact ⟨⟨hs.known, by simp, by simp⟩, rfl⟩
  | release hports' =>
    cases hports.symm.trans hports'
    rw [hcommand, not_taken hcommand]
    exact ⟨⟨hs.known, by simp, hs.offer_kept hw⟩, rfl⟩
  | wait hports' =>
    cases hports.symm.trans hports'
    rw [hcommand, not_taken hcommand]
    exact ⟨⟨hs.known, hs.readable, hs.offer_kept hw⟩, rfl⟩
  | fill hports' =>
    cases hports.symm.trans hports'
    rw [hcommand, not_taken hcommand]
    exact ⟨⟨hs.known, by simp, hs.offer_kept hw⟩, rfl⟩
  | quiet hports' =>
    cases hports.symm.trans hports'
    rw [hcommand, not_taken hcommand]
    exact ⟨⟨hs.known, by simp, hs.offer_kept hw⟩, rfl⟩

/-- A dutiful host's run goes on to the end of its moves, takes its words, and leaves nothing to do. -/
theorem run_of_keepsDuties {k : Nat} {ws : List CmdWord} {s : State} (hs : s.Serves ws) (hduties : keepsDuties ws k s) :
    (∀ m ∈ s.host.take k, m.noReset = true) ∧ commandsTaken k s = ws ∧
      ∃ t, runSteps k s = .next t ∧ t.host = [] ∧ t.offered = [] ∧ t.rspPending = false := by
  induction k generalizing ws s with
  | zero =>
    obtain ⟨rfl, hhost, hidle⟩ := hduties
    refine ⟨by simp, rfl, s, rfl, hhost, List.eq_nil_iff_forall_not_mem.2 fun w hmem => ?_, hidle⟩
    cases hs.offer w hmem
  | succ k ih =>
    obtain ⟨p, rest, hhost, hrst, hw, -, hnext⟩ := hduties
    obtain ⟨u, hstep⟩ := hs.step_exists hhost
    obtain ⟨hserves, hwords⟩ := hs.step (State.nextPorts_of_edge hhost) hrst hw hstep
    obtain ⟨hmoves, hcommands, hrun⟩ := ih hserves (hnext u hstep)
    obtain ⟨-, -, hhost'⟩ := step_frame hstep
    rw [hhost', hhost, List.tail_cons] at hmoves
    rw [hhost, List.take_succ_cons, commandsTaken_succ_of_next hstep, hcommands, hwords, runSteps_succ_of_next hstep]
    exact ⟨List.forall_mem_cons.2 ⟨by simp [HostMove.noReset, hrst], hmoves⟩, rfl, hrun⟩

/-- Settles O47: the run is one without reset whose commands are the words issued, and it leaves nothing to do. -/
theorem everyDutifulHostGetsEveryResponse : Obligations.EveryDutifulHostGetsEveryResponse := by
  unfold Obligations.EveryDutifulHostGetsEveryResponse
  intro ws k s hknown hidle hoffered hduties
  have hserves : s.Serves ws := ⟨hknown, fun hpending => absurd hpending (by simp [hidle]), by simp [hoffered]⟩
  obtain ⟨hmoves, hcommands, t, hrun, hhost, hoffered', hidle'⟩ := run_of_keepsDuties hserves hduties
  have hobserve := observe_of_run hknown hidle hmoves hrun hhost hoffered' hidle'
  rw [hcommands] at hobserve
  exact ⟨hcommands, hobserve⟩

/-! ## The shortest schedule -/

theorem State.ready_iff (s : State) :
    s.ready = true ↔ s.known = true ∧ s.rspPending = false ∧ s.fillLeft = 0 ∧ s.offered = [] := by
  simp [State.ready, and_assoc]

theorem State.takesCommand_of_offer {s : State} (hready : s.ready = true) (w : CmdWord) :
    s.takesCommand (offerPorts w) = true := by
  obtain ⟨-, hidle, hfill, -⟩ := s.ready_iff.1 hready
  exact State.takesCommand_of_ready rfl hidle hfill rfl

/-- A ready engine takes the word offered. -/
theorem step_of_offer {s : State} {w : CmdWord} {rest : List HostMove} (hready : s.ready = true)
    (hhost : s.host = .edge (offerPorts w) :: rest) :
    step s = .next (s.popMove.commandEdge (offerPorts w)) ∧ s.commandAt = some w ∧ s.responseAt = none := by
  obtain ⟨hknown, hidle, -, hoffered⟩ := s.ready_iff.1 hready
  have hports := State.nextPorts_of_edge hhost
  have htakes := State.takesCommand_of_offer hready w
  have hword : s.takenWord (offerPorts w) = w := State.takenWord_of_no_offer hoffered _
  refine ⟨?_, ?_, State.responseAt_eq_none_of_idle hidle⟩
  · rw [step_of_nextPorts hports (.inr hidle)]
    exact clockEdge_eq_txStep hknown htakes
  · rw [State.commandAt_of_takesCommand hports hknown htakes, hword]

/-- The host takes a response it can read. -/
theorem step_of_take {s : State} {r : Response} {rest : List HostMove} (hknown : s.known = true)
    (hheld : s.heldResponse = some r) (hhost : s.host = .edge takePorts :: rest) :
    step s = .next (s.popMove.releaseEdge takePorts) ∧ s.commandAt = none ∧ s.responseAt = some r := by
  have hports := State.nextPorts_of_edge hhost
  refine ⟨?_, State.commandAt_eq_none hports (State.takesCommand_eq_false_of_not_cmdValid rfl s),
    State.responseAt_of_rspReady hports hknown rfl hheld⟩
  rw [step_of_nextPorts hports (.inl (by simp [hhost]))]
  exact clockEdge_of_rspReady hknown rfl rfl hheld

/-- The schedule offers the next word, has it taken, and leaves the engine ready for the one after. -/
theorem keepsDuties_conformingHost {ws : List CmdWord} {s : State} (hready : s.ready = true)
    (hhost : s.host = conformingHost ws) : keepsDuties ws (2 * ws.length) s := by
  induction ws generalizing s with
  | nil =>
    obtain ⟨-, hidle, -, -⟩ := s.ready_iff.1 hready
    exact ⟨rfl, hhost, hidle⟩
  | cons w ws ih =>
    have hhost₁ : s.host = .edge (offerPorts w) :: .edge takePorts :: conformingHost ws := hhost
    obtain ⟨hknown, -, hfill, hoffered⟩ := s.ready_iff.1 hready
    obtain ⟨hoffer, -, -⟩ := step_of_offer hready hhost₁
    have hhost₂ : (s.popMove.commandEdge (offerPorts w)).host = .edge takePorts :: conformingHost ws := by
      rw [State.commandEdge_host, State.popMove_host, hhost₁, List.tail_cons]
    obtain ⟨htake, -, -⟩ := step_of_take (s := s.popMove.commandEdge (offerPorts w)) hknown
      (State.heldResponse_commandEdge _ _) hhost₂
    rw [List.length_cons, Nat.mul_succ,
      keepsDuties_succ_of_next hoffer hhost₁ rfl (fun _ => rfl) (fun hne => absurd hoffered hne),
      if_pos (State.takesCommand_of_offer hready w), List.tail_cons,
      keepsDuties_succ_of_next htake hhost₂ rfl nofun (fun hne => absurd rfl hne),
      State.takesCommand_eq_false_of_not_cmdValid rfl]
    refine ih ((State.ready_iff _).2 ⟨hknown, rfl, hfill, rfl⟩) ?_
    rw [State.releaseEdge_host, State.popMove_host, hhost₂, List.tail_cons]

/-- Settles O46: the schedule is one that keeps the duties. -/
theorem conformingHostGetsEveryResponse : Obligations.ConformingHostGetsEveryResponse := by
  unfold Obligations.ConformingHostGetsEveryResponse
  intro s ws hready
  obtain ⟨hknown, hidle, -, hoffered⟩ := s.ready_iff.1 hready
  have hready' : ({ s with host := conformingHost ws } : State).ready = true := hready
  exact everyDutifulHostGetsEveryResponse ws _ _ hknown hidle hoffered (keepsDuties_conformingHost hready' rfl)

/-- Settles O49: the schedule's words are the command sequence of the message, and `Run` on it is `crc32`. -/
theorem portsDeliverTheChecksumOfAnyMessage : Obligations.PortsDeliverTheChecksumOfAnyMessage := by
  unfold Obligations.PortsDeliverTheChecksumOfAnyMessage
  intro s d hready
  obtain ⟨-, hlength, hrun⟩ := commandSequenceComputesCrc32 s.crc d
  obtain ⟨-, hobserve⟩ := conformingHostGetsEveryResponse s (crc32Words d) hready
  rw [hlength, hrun] at hobserve
  exact hobserve

/-! ## The end of a run (R108) -/

/-- An observed run has had as many responses as it took commands, and the one held where it began. -/
theorem length_responses_of_observe {k : Nat} {s : State} {o : Observation} (hknown : s.known = true)
    (h : observe k s = some o) :
    (responsesTaken k s).length = (commandsTaken k s).length + if s.rspPending = true then 1 else 0 := by
  obtain ⟨t, hrun, hended, -, -⟩ := ended_of_observe h
  obtain ⟨-, -, hawaiting⟩ := (HostView.ended_iff _ t).1 hended
  have balance := awaiting_hostView_add hrun s.startView_awaitsHeld
  rw [hawaiting, Nat.zero_add, (State.startView_tracks hknown).awaiting] at balance
  rw [balance, Nat.add_comm]

/-- A run that takes one command and no response is not over. -/
theorem observe_eq_none_of_unanswered {k : Nat} {s : State} {w : CmdWord} (hknown : s.known = true)
    (hcommands : commandsTaken k s = [w]) (hresponses : responsesTaken k s = []) : observe k s = none := by
  cases hobserve : observe k s with
  | none => rfl
  | some o =>
    have counted := length_responses_of_observe hknown hobserve
    rw [hcommands, hresponses, List.length_nil, List.length_singleton] at counted
    omega

/-- A command taken by a ready engine, then a step that neither takes one nor gives the response. -/
theorem observe_of_discarded_response {s u : State} {w : CmdWord} {rest : List HostMove} (hready : s.ready = true)
    (hhost : s.host = .edge (offerPorts w) :: rest)
    (hnext : step (s.popMove.commandEdge (offerPorts w)) = .next u ∧
      (s.popMove.commandEdge (offerPorts w)).commandAt = none ∧
      (s.popMove.commandEdge (offerPorts w)).responseAt = none) : observe 2 s = none := by
  obtain ⟨hknown, -, -, -⟩ := s.ready_iff.1 hready
  obtain ⟨hstep, hcommand, hresponse⟩ := step_of_offer hready hhost
  obtain ⟨hstep', hcommand', hresponse'⟩ := hnext
  apply observe_eq_none_of_unanswered (w := w) hknown
  · rw [commandsTaken_succ_of_next hstep, commandsTaken_succ_of_next hstep', hcommand, hcommand']
    rfl
  · rw [responsesTaken_succ_of_next hstep, responsesTaken_succ_of_next hstep', hresponse, hresponse']
    rfl

/-- A run that leaves a response held is not over. -/
theorem observe_eq_none_of_held {k : Nat} {s t : State} (hrun : runSteps k s = .next t) (hknown : t.known = true)
    (hpending : t.rspPending = true) : observe k s = none := by
  cases hobserve : observe k s with
  | none => rfl
  | some o =>
    obtain ⟨u, hrun', hended, -, -⟩ := ended_of_observe hobserve
    cases hrun.symm.trans hrun'
    obtain ⟨-, -, hawaiting⟩ := (HostView.ended_iff _ t).1 hended
    have awaited := awaitsHeld_hostView hrun s.startView_awaitsHeld hknown hpending
    omega

/-- An engine not reset since power-up has no register to show before the host has a response. -/
theorem observe_eq_none_of_unknown {k : Nat} {s : State} (hknown : s.known = false) (h : responsesTaken k s = []) :
    observe k s = none := by
  cases hobserve : observe k s with
  | none => rfl
  | some o =>
    obtain ⟨-, -, -, hcrc, -⟩ := ended_of_observe hobserve
    rw [crc_hostView_of_no_response h] at hcrc
    simp [State.startView, hknown] at hcrc

theorem step_of_rst {s : State} {p : PortIn} {rest : List HostMove} (hhost : s.host = .edge p :: rest)
    (hrst : p.rst = true) : step s = .next (s.popMove.resetEdge p) := by
  rw [step_of_nextPorts (State.nextPorts_of_edge hhost) (.inl (by simp [hhost]))]
  exact clockEdge_of_rst hrst _

/-- A reset at the end of a run whose responses the host has had changes nothing of what is observed. -/
theorem observe_of_run_then_reset {k : Nat} {s t : State} {p : PortIn} (hknown : s.known = true)
    (hidle : s.rspPending = false) (hmoves : ∀ m ∈ s.host.take k, m.noReset = true) (hrun : runSteps k s = .next t)
    (hhost : t.host = [.edge p]) (hrst : p.rst = true) (hvalid : p.cmdValid = false) (hidle' : t.rspPending = false) :
    observe (k + 1) s = some ⟨(txRun s.crc (commandsTaken k s)).2, (txRun s.crc (commandsTaken k s)).1⟩ := by
  obtain ⟨-, hawaiting, hcrc⟩ := tracks_hostView hmoves hrun (State.startView_tracks hknown)
  obtain ⟨-, hrefined⟩ := portRunsRefineTransactionRuns k s t hknown hidle hmoves hrun
  have hports := State.nextPorts_of_edge hhost
  have hstep := step_of_rst hhost hrst
  have hcommand : t.commandAt = none := State.commandAt_eq_none_of_rst hhost hrst
  have hresponse : t.responseAt = none := State.responseAt_eq_none_of_idle hidle'
  have hview : hostView (k + 1) s.startView s = t.viewAfter (hostView k s.startView s) := by
    rw [hostView_add_of_next hrun, hostView_succ_of_next hstep, hostView]
  have hresponses : responsesTaken (k + 1) s = responsesTaken k s := by
    rw [responsesTaken_add_of_next hrun, responsesTaken_succ_of_next hstep, hresponse]
    exact List.append_nil _
  have hrun' : runSteps (k + 1) s = .next (t.popMove.resetEdge p) := by
    rw [runSteps_add_of_next hrun, runSteps_succ_of_next hstep, runSteps]
  rw [hrefined hidle', ← hresponses]
  refine observe_of_ended hrun' ((HostView.ended_iff _ _).2 ⟨?host, ?offering, ?awaiting⟩) ?crc
  case host => rw [State.resetEdge_host, State.popMove_host, hhost, List.tail_cons]
  case offering => rw [hview, State.viewAfter_offering hports, hvalid, Bool.false_and]
  case awaiting =>
    rw [hview, State.viewAfter_awaiting, hawaiting, hidle', hcommand, hresponse]
    rfl
  case crc =>
    rw [hview, State.viewAfter_crc, hresponse]
    exact hcrc hidle'

/-- One command offered, its response taken, then a reset: the host observes `Step` on the word. -/
theorem observe_of_taken_then_reset {s : State} {w : CmdWord} (hready : s.ready = true)
    (hhost : s.host = [.edge (offerPorts w), .edge takePorts, .edge resetPorts]) :
    observe 3 s = some ⟨[(txStep s.crc w).2], (txStep s.crc w).1⟩ := by
  obtain ⟨hknown, hidle, -, -⟩ := s.ready_iff.1 hready
  obtain ⟨hoffer, hcommand, -⟩ := step_of_offer hready hhost
  have hhost₁ : (s.popMove.commandEdge (offerPorts w)).host = [.edge takePorts, .edge resetPorts] := by
    rw [State.commandEdge_host, State.popMove_host, hhost, List.tail_cons]
  obtain ⟨htake, hcommand₁, -⟩ := step_of_take (s := s.popMove.commandEdge (offerPorts w)) hknown
    (State.heldResponse_commandEdge _ _) hhost₁
  have hrun : runSteps 2 s = .next ((s.popMove.commandEdge (offerPorts w)).popMove.releaseEdge takePorts) := by
    rw [runSteps_succ_of_next hoffer, runSteps_succ_of_next htake, runSteps]
  have hhost₂ : ((s.popMove.commandEdge (offerPorts w)).popMove.releaseEdge takePorts).host = [.edge resetPorts] := by
    rw [State.releaseEdge_host, State.popMove_host, hhost₁, List.tail_cons]
  have hmoves : ∀ m ∈ s.host.take 2, m.noReset = true := by
    rw [hhost]
    exact List.forall_mem_cons.2 ⟨rfl, List.forall_mem_singleton.2 rfl⟩
  have hcommands : commandsTaken 2 s = [w] := by
    rw [commandsTaken_succ_of_next hoffer, commandsTaken_succ_of_next htake, hcommand, hcommand₁]
    rfl
  have hobserve := observe_of_run_then_reset hknown hidle hmoves hrun hhost₂ rfl rfl rfl
  rwa [hcommands] at hobserve

/-- Settles O48: what a reset or a power loss discards stays awaited, and what is had stays had. -/
theorem runEndsWithTheResponseToItsLastCommand : Obligations.RunEndsWithTheResponseToItsLastCommand := by
  unfold Obligations.RunEndsWithTheResponseToItsLastCommand
  refine ⟨fun s w hready => ⟨?reset, ?powerLoss, ?taken⟩, fun k s t => observe_eq_none_of_held,
    fun k s o hknown hobserve => ?counted, fun k s => observe_eq_none_of_unknown⟩
  case reset =>
    exact observe_of_discarded_response (s := { s with host := _ }) hready rfl
      ⟨step_of_rst rfl rfl, State.commandAt_eq_none_of_rst rfl rfl, State.responseAt_eq_none_of_not_rspReady rfl rfl⟩
  case powerLoss =>
    exact observe_of_discarded_response (s := { s with host := _ }) hready rfl
      ⟨step_of_powerLoss rfl, State.commandAt_of_powerLoss rfl, State.responseAt_of_powerLoss rfl⟩
  case taken => exact observe_of_taken_then_reset (s := { s with host := _ }) hready rfl
  case counted =>
    obtain ⟨t, hrun, hended, -, hresponses⟩ := ended_of_observe hobserve
    obtain ⟨hhost, -, -⟩ := (HostView.ended_iff _ t).1 hended
    rw [hresponses]
    exact ⟨⟨t, hrun, hhost⟩, rfl, length_responses_of_observe hknown hobserve⟩

end Sys2Proof.Machine
end

section
/-! Noninterference: of the values of an empty response register (93_implementation_defined.md U4), and of the engines of a system with
each other (60_exceptions.md R95). -/

namespace Sys2Proof.Machine

/-! ## Empty response registers (U4) -/

theorem State.heldResponse_eq_of_agrees {s t : State} (h : s.agrees t) : s.heldResponse = t.heldResponse := by
  obtain ⟨-, hpending, hvalues, -, -⟩ := h
  cases hs : s.rspPending with
  | false => rw [State.heldResponse_of_idle hs, State.heldResponse_of_idle (hpending ▸ hs)]
  | true =>
    obtain ⟨hkind, hdata⟩ := hvalues hs
    rw [State.heldResponse_of_pending hs, State.heldResponse_of_pending (hpending ▸ hs), hkind, hdata]

theorem State.takesCommand_eq_of_agrees {s t : State} (h : s.agrees t) (p : PortIn) :
    s.takesCommand p = t.takesCommand p := by
  obtain ⟨-, hpending, -, -, hfill⟩ := h
  simp only [State.takesCommand, State.cmdReady, State.tableAvailable, hpending, hfill]

theorem State.commandAt_eq_of_agrees {s t : State} {p : PortIn} (h : s.agrees t) (hs : s.nextPorts = some p)
    (ht : t.nextPorts = some p) (hword : s.takenWord p = t.takenWord p) : s.commandAt = t.commandAt := by
  have htakes := State.takesCommand_eq_of_agrees h p
  obtain ⟨-, -, -, hknown, -⟩ := h
  rw [State.commandAt_of_nextPorts hs, State.commandAt_of_nextPorts ht, hknown, htakes, hword]

theorem State.responseAt_eq_of_agrees {s t : State} {p : PortIn} (h : s.agrees t) (hs : s.nextPorts = some p)
    (ht : t.nextPorts = some p) : s.responseAt = t.responseAt := by
  have hheld := State.heldResponse_eq_of_agrees h
  obtain ⟨-, hpending, -, hknown, -⟩ := h
  have hgives : s.givesResponse p = t.givesResponse p := by
    rw [State.givesResponse, State.givesResponse, State.rspValid, State.rspValid, hpending]
  rw [State.responseAt_of_nextPorts hs, State.responseAt_of_nextPorts ht, hknown, hgives, hheld]

/-- Two states that no response is held in agree by their register, reset and fill. -/
theorem State.agrees_of_idle {s t : State} (hs : s.rspPending = false) (ht : t.rspPending = false) (hcrc : s.crc = t.crc)
    (hknown : s.known = t.known) (hfill : s.fillLeft = t.fillLeft) : s.agrees t :=
  ⟨hcrc, hs.trans ht.symm, fun hpending => absurd hpending (by simp [hs]), hknown, hfill⟩

/-- At an edge that would take the same word of both, states that agree make steps that agree. -/
theorem EdgeStep.agrees {p : PortIn} {s t s' : State} (hedge : EdgeStep p s s') (h : s.agrees t)
    (htime : s.fillTime = t.fillTime) (hoffered : s.offered = t.offered) (hword : s.takenWord p = t.takenWord p) :
    ∃ t', EdgeStep p t t' ∧ s'.agrees t' ∧ s'.offered = t'.offered := by
  have hheld_eq := State.heldResponse_eq_of_agrees h
  have htakes_eq := State.takesCommand_eq_of_agrees h p
  obtain ⟨hcrc, hpending_eq, hvalues, hknown_eq, hfill_eq⟩ := h
  have offer_eq : (s.sampled p).offered = (t.sampled p).offered := by
    rw [State.sampled_offered, State.sampled_offered, hoffered]
  cases hedge with
  | reset hrst =>
    refine ⟨_, .reset hrst, State.agrees_of_idle rfl rfl rfl rfl ?_, rfl⟩
    rw [State.resetEdge_fillLeft, State.resetEdge_fillLeft, hknown_eq, hfill_eq, htime]
  | release hrst hknown hready hheld =>
    exact ⟨_, .release hrst (hknown_eq ▸ hknown) hready (hheld_eq ▸ hheld),
      State.agrees_of_idle rfl rfl hcrc hknown_eq hfill_eq, offer_eq⟩
  | wait hrst hknown hready hpending =>
    exact ⟨_, .wait hrst (hknown_eq ▸ hknown) hready (hpending_eq ▸ hpending),
      ⟨hcrc, hpending_eq, hvalues, hknown_eq, hfill_eq⟩, offer_eq⟩
  | fill hrst hknown hidle hfill =>
    exact ⟨_, .fill hrst (hknown_eq ▸ hknown) (hpending_eq ▸ hidle) (hfill_eq ▸ hfill),
      State.agrees_of_idle rfl rfl hcrc hknown_eq (congrArg (· - 1) hfill_eq), offer_eq⟩
  | command hknown htakes =>
    refine ⟨_, .command (hknown_eq ▸ hknown) (htakes_eq ▸ htakes), ?_, rfl⟩
    simp [State.agrees, hcrc, hword, hknown_eq, hfill_eq]
  | quiet hrst hknown hidle hfill hvalid =>
    exact ⟨_, .quiet hrst (hknown_eq ▸ hknown) (hpending_eq ▸ hidle) (hfill_eq ▸ hfill) hvalid,
      State.agrees_of_idle rfl rfl hcrc hknown_eq hfill_eq, offer_eq⟩

/-- Settles O50: the word taken is the stable one, and every guard of an edge is one of the fields that agree. -/
theorem idleResponseValuesAreNeverObserved : Obligations.IdleResponseValuesAreNeverObserved := by
  unfold Obligations.IdleResponseValuesAreNeverObserved
  intro s t p rest hs ht hagrees htime hoffered hstable
  have hports := State.nextPorts_of_edge hs
  have hports' := State.nextPorts_of_edge ht
  have hword : s.takenWord p = t.takenWord p := by
    rw [State.takenWord_of_stable hstable, State.takenWord_of_stable (hoffered ▸ hstable)]
  refine ⟨State.commandAt_eq_of_agrees hagrees hports hports' hword, State.responseAt_eq_of_agrees hagrees hports hports', ?_⟩
  have hstep : step s = clockEdge p s.popMove := step_of_nextPorts hports (.inl (by simp [hs]))
  have hstep' : step t = clockEdge p t.popMove := step_of_nextPorts hports' (.inl (by simp [ht]))
  have hpopped : s.popMove.agrees t.popMove := hagrees
  rw [hstep, hstep']
  rcases clockEdge_outcomes p s.popMove with ⟨s', hnext, hedge⟩ |
    ⟨hfault, hrst, hknown, hpending, hready, hheld⟩ | ⟨hrefused, hrst, hknown⟩
  · obtain ⟨t', hedge', hagrees', hoffered'⟩ := hedge.agrees hpopped htime hoffered hword
    obtain ⟨htime₁, -, hhost₁⟩ := hedge.frame
    obtain ⟨htime₂, -, hhost₂⟩ := hedge'.frame
    refine .inl ⟨s', t', hnext, clockEdge_eq_next_iff.2 hedge', hagrees', hoffered', ?_, ?_, ?_⟩
    · exact (htime₁.trans htime).trans htime₂.symm
    · rw [hhost₁, State.popMove_host, hs, List.tail_cons]
    · rw [hhost₂, State.popMove_host, ht, List.tail_cons]
  · have hheld_eq := State.heldResponse_eq_of_agrees hpopped
    obtain ⟨-, hpending_eq, -, hknown_eq, -⟩ := hpopped
    exact .inr (.inl ⟨_, hfault, clockEdge_of_unreadable hrst (hknown_eq ▸ hknown) (hpending_eq ▸ hpending) hready
      (hheld_eq ▸ hheld)⟩)
  · obtain ⟨-, -, -, hknown_eq, -⟩ := hpopped
    exact .inr (.inr ⟨_, hrefused, clockEdge_of_unknown hrst (hknown_eq ▸ hknown)⟩)

/-! ## Systems of engines (R95) -/

theorem System.stepEngine_self {n : Nat} (k : Fin n) (y : System n) :
    (System.stepEngine k y)[k] = stepOrStay y[k] := by
  simp [System.stepEngine]

theorem System.stepEngine_of_ne {n : Nat} {j k : Fin n} (h : j ≠ k) (y : System n) :
    (System.stepEngine j y)[k] = y[k] := by
  simp [System.stepEngine, Fin.val_ne_of_ne h]

theorem stepOrStay_of_next {s t : State} (h : step s = .next t) : stepOrStay s = t := by
  rw [stepOrStay, h]

theorem stepOrStay_of_stopped {s : State} (h : ∀ t, step s ≠ .next t) : stepOrStay s = s := by
  rcases stepOrStay_cases s with ⟨t, hnext, -⟩ | ⟨-, hstays⟩
  · exact absurd hnext (h t)
  · exact hstays

/-- Settles O51: the two steps write different places of the vector. -/
theorem stepsOfDifferentEnginesCommute : Obligations.StepsOfDifferentEnginesCommute := by
  unfold Obligations.StepsOfDifferentEnginesCommute
  intro n j k y _ hne
  refine ⟨?commute, System.stepEngine_of_ne hne y, fun t hnext => ?own, fun hstopped => ?stopped⟩
  case commute =>
    rw [System.stepEngine, System.stepEngine_of_ne hne, System.stepEngine, System.stepEngine,
      System.stepEngine_of_ne hne.symm, System.stepEngine]
    exact Vector.set_comm _ _ (Fin.val_ne_of_ne hne)
  case own => rw [System.stepEngine_self, stepOrStay_of_next hnext]
  case stopped =>
    rw [System.stepEngine, stepOrStay_of_stopped hstopped]
    exact Vector.set_getElem_self _

/-- After a schedule each engine has made the steps the schedule gives it. -/
theorem System.getElem_runSchedule {n : Nat} (ks : List (Fin n)) (y : System n) (k : Fin n) :
    (System.runSchedule ks y)[k] = stepOrStay^[ks.count k] y[k] := by
  induction ks generalizing y with
  | nil => rfl
  | cons j ks ih =>
    rw [System.runSchedule, ih]
    by_cases h : j = k
    · subst h
      rw [System.stepEngine_self, List.count_cons_self, Function.iterate_succ_apply]
    · rw [System.stepEngine_of_ne h, List.count_cons_of_ne h]

theorem iterate_stepOrStay_of_run {k : Nat} {s t : State} (h : runSteps k s = .next t) : stepOrStay^[k] s = t := by
  induction k generalizing s with
  | zero =>
    cases h
    rfl
  | succ k ih =>
    obtain ⟨u, hstep, hrun⟩ := runSteps_succ_eq_next_iff.1 h
    rw [Function.iterate_succ_apply, stepOrStay_of_next hstep, ih hrun]

/-- Settles O52: by induction on the schedule, and the schedule of every engine once counts each once. -/
theorem eachEngineRunsAsIfAlone : Obligations.EachEngineRunsAsIfAlone := by
  unfold Obligations.EachEngineRunsAsIfAlone
  intro n y _
  refine ⟨fun ks k => ⟨System.getElem_runSchedule ks y k, fun t hrun => ?run, fun hstopped => ?stopped⟩, ?once⟩
  case run => rw [System.getElem_runSchedule, iterate_stepOrStay_of_run hrun]
  case stopped => rw [System.getElem_runSchedule, Function.iterate_fixed (stepOrStay_of_stopped hstopped)]
  case once =>
    ext1 i hi
    have counted : (List.finRange n).count ⟨i, hi⟩ = 1 :=
      List.count_eq_one_of_mem (List.nodup_finRange n) (List.mem_finRange _)
    have stepped := System.getElem_runSchedule (List.finRange n) y ⟨i, hi⟩
    rw [counted, Function.iterate_one] at stepped
    rw [System.stepAll, Vector.getElem_map]
    exact stepped

end Sys2Proof.Machine
end

section
/-! The assembler and the disassembler (30_encoding.md R59 to R63): lines of a mnemonic and one number are read as their two runs, the
disassembler's hexadecimal digits are read back, and the pseudo-instructions are their lists of words. -/

namespace Sys2Proof.Machine

/-! ## Runs of plain characters -/

/-- A character that a run goes on through: no white space, no comma, no quote and no comment. -/
def isPlain (c : Char) : Bool := !isBlank c && c ≠ ';' && c ≠ ',' && c ≠ '"' && c ≠ '\''

theorem isPlain_iff (c : Char) :
    isPlain c = true ↔ isBlank c = false ∧ c ≠ ';' ∧ c ≠ ',' ∧ c ≠ '"' ∧ c ≠ '\'' := by
  simp [isPlain, and_assoc]

theorem tokenize_inRun_of_plain {c : Char} (h : isPlain c = true) (cs rev : List Char) :
    tokenize (c :: cs) (.inRun rev) = tokenize cs (.inRun (c :: rev)) := by
  obtain ⟨hblank, hcomment, hcomma, hquote, htick⟩ := (isPlain_iff c).1 h
  simp [tokenize, hblank, hcomment, hcomma, hquote, htick]

theorem tokenize_between_of_plain {c : Char} (h : isPlain c = true) (cs : List Char) :
    tokenize (c :: cs) .between = tokenize cs (.inRun [c]) := by
  obtain ⟨hblank, hcomment, hcomma, hquote, htick⟩ := (isPlain_iff c).1 h
  simp [tokenize, hblank, hcomment, hcomma, hquote, htick]

/-- A run takes in all the plain characters that follow it. -/
theorem tokenize_inRun_append {cs : List Char} (h : cs.all isPlain = true) (rest rev : List Char) :
    tokenize (cs ++ rest) (.inRun rev) = tokenize rest (.inRun (cs.reverse ++ rev)) := by
  induction cs generalizing rev with
  | nil => rfl
  | cons c cs ih =>
    obtain ⟨hc, hcs⟩ := Bool.and_eq_true_iff.1 (List.all_cons.symm.trans h)
    rw [List.cons_append, tokenize_inRun_of_plain hc, ih hcs, List.reverse_cons, List.append_assoc]
    rfl

theorem tokenize_append_of_plain {cs : List Char} (hne : cs ≠ []) (h : cs.all isPlain = true) (rest : List Char) :
    tokenize (cs ++ rest) .between = tokenize rest (.inRun cs.reverse) := by
  obtain ⟨c, cs, rfl⟩ := List.exists_cons_of_ne_nil hne
  obtain ⟨hc, hcs⟩ := Bool.and_eq_true_iff.1 (List.all_cons.symm.trans h)
  rw [List.cons_append, tokenize_between_of_plain hc, tokenize_inRun_append hcs, List.reverse_cons]

theorem tokenize_run {cs : List Char} (hne : cs ≠ []) (h : cs.all isPlain = true) :
    tokenize cs .between = some [.run cs] := by
  have tokens := tokenize_append_of_plain hne h []
  rw [List.append_nil] at tokens
  rw [tokens, tokenize, List.reverse_reverse]

/-- A mnemonic and an operand, with a blank between them, are two runs. -/
theorem tokenize_two_runs {m ds : List Char} (hm : m ≠ []) (hds : ds ≠ []) (hplain : m.all isPlain = true)
    (hplain' : ds.all isPlain = true) : tokenize (m ++ ' ' :: ds) .between = some [.run m, .run ds] := by
  have after_blank : tokenize (' ' :: ds) (.inRun m.reverse) =
      (tokenize ds .between).map fun ts => .run m.reverse.reverse :: ts := by
    rw [tokenize, if_pos (by decide)]
  rw [tokenize_append_of_plain hm hplain, after_blank, tokenize_run hds hplain', List.reverse_reverse]
  rfl

theorem assembleLine_of_tokens {cs : List Char} {t : AsmToken} {ts : List AsmToken}
    (h : tokenize cs .between = some (t :: ts)) : assembleLine cs = (parseStmt (t :: ts)).bind assembleStmt := by
  rw [assembleLine, h]

/-! ## The disassembler's digits -/

theorem hexDigit_hexChar {n : Nat} (h : n < 16) : hexDigit (hexChar n) = some n := by
  revert n
  decide

theorem isPlain_hexChar {n : Nat} (h : n < 16) : isPlain (hexChar n) = true := by
  revert n
  decide

theorem high_digit_lt (b : Byte) : b.toNat / 16 < 16 := Nat.div_lt_of_lt_mul b.isLt

theorem low_digit_lt (b : Byte) : b.toNat % 16 < 16 := Nat.mod_lt _ (by decide)

theorem all_isPlain_hexByte (b : Byte) : (hexByte b).all isPlain = true := by
  simp [hexByte, isPlain_hexChar (high_digit_lt b), isPlain_hexChar (low_digit_lt b)]

/-- The two digits of a byte read back as the byte, after the digits before them. -/
theorem digitsValue_hexByte (b : Byte) (rest : List Char) (acc : Nat) :
    digitsValue hexDigit 16 (hexByte b ++ rest) acc = digitsValue hexDigit 16 rest (acc * 256 + b.toNat) := by
  have value_eq : (acc * 16 + b.toNat / 16) * 16 + b.toNat % 16 = acc * 256 + b.toNat := by omega
  simp only [hexByte, List.cons_append, List.nil_append, digitsValue, hexDigit_hexChar (high_digit_lt b),
    hexDigit_hexChar (low_digit_lt b), value_eq]

/-- A hexadecimal number of one byte. -/
theorem immValue_hexByte (b : Byte) : immValue (.run ('0' :: 'x' :: hexByte b)) = some b.toNat := by
  have read_back := digitsValue_hexByte b [] 0
  rw [List.append_nil, Nat.zero_mul, Nat.zero_add] at read_back
  exact read_back

/-- A hexadecimal number of two bytes, the upper one first. -/
theorem immValue_hexBytes (high low : Byte) :
    immValue (.run ('0' :: 'x' :: (hexByte high ++ hexByte low))) = some (high.toNat * 256 + low.toNat) := by
  have read_back := digitsValue_hexByte high (hexByte low) 0
  have read_low := digitsValue_hexByte low [] (0 * 256 + high.toNat)
  rw [List.append_nil] at read_low
  rw [read_low, Nat.zero_mul, Nat.zero_add] at read_back
  exact read_back

/-! ## Disassembly and assembly (R63) -/

theorem byteWord_toNat (b : Byte) : byteWord b.toNat = encode (.crcByte b) := by
  rw [byteWord, BitVec.ofNat_toNat, BitVec.setWidth_eq]

/-- A line of a mnemonic and a hexadecimal number is the mnemonic's statement with that operand. -/
theorem assembleLine_hex {m ds : List Char} (hm : m ≠ []) (hplain : m.all isPlain = true)
    (hds : ds.all isPlain = true) :
    assembleLine (m ++ ' ' :: '0' :: 'x' :: ds) = (parseNamed m [.run ('0' :: 'x' :: ds)]).bind assembleStmt := by
  have number_plain : ('0' :: 'x' :: ds).all isPlain = true := hds
  have tokens := tokenize_two_runs hm (List.cons_ne_nil '0' ('x' :: ds)) hplain number_plain
  rw [assembleLine_of_tokens tokens, parseStmt]

theorem parseNamed_mnByte (t : AsmToken) : parseNamed mnByte [t] = (immValue t).map .crcByte := rfl

theorem parseNamed_mnWord (t : AsmToken) : parseNamed mnWord [t] = (immValue t).map .word := rfl

theorem assembleStmt_of_wf {st : AsmStmt} (h : st.wf = true) : assembleStmt st = some (AsmStmt.expand st) := by
  rw [assembleStmt, if_pos h]

theorem assembleStmt_of_not_wf {st : AsmStmt} (h : st.wf = false) : assembleStmt st = none := by
  rw [assembleStmt, if_neg (by simp [h])]

theorem assembleLine_crcByte (b : Byte) :
    assembleLine (mnByte ++ ' ' :: '0' :: 'x' :: hexByte b) = some [encode (.crcByte b)] := by
  have in_range : (AsmStmt.crcByte b.toNat).wf = true := decide_eq_true b.isLt
  rw [assembleLine_hex (by decide) (by decide) (all_isPlain_hexByte b), parseNamed_mnByte, immValue_hexByte,
    Option.map_some, Option.bind_some, assembleStmt_of_wf in_range, AsmStmt.expand, byteWord_toNat]

theorem assembleLine_word (w : CmdWord) :
    assembleLine (mnWord ++ ' ' :: '0' :: 'x' :: (hexByte (opField w) ++ hexByte (dataField w))) = some [w] := by
  have digits_plain : (hexByte (opField w) ++ hexByte (dataField w)).all isPlain = true := by
    rw [List.all_append, all_isPlain_hexByte, all_isPlain_hexByte, Bool.and_self]
  have value_eq : (opField w).toNat * 256 + (dataField w).toNat = w.toNat := by
    rw [toNat_opField, toNat_dataField, Nat.div_add_mod']
  have in_range : (AsmStmt.word w.toNat).wf = true := decide_eq_true w.isLt
  rw [assembleLine_hex (by decide) (by decide) digits_plain, parseNamed_mnWord, immValue_hexBytes, value_eq,
    Option.map_some, Option.bind_some, assembleStmt_of_wf in_range, AsmStmt.expand, BitVec.ofNat_toNat,
    BitVec.setWidth_eq]

/-- Settles O53: each text is a mnemonic alone, or a mnemonic and a number whose digits read back. -/
theorem disassemblyReassembles : Obligations.DisassemblyReassembles := by
  unfold Obligations.DisassemblyReassembles
  intro w
  cases hdecode : decode w with
  | illegal v =>
    obtain rfl := decode_illegal_eq hdecode
    rw [disassemble, hdecode]
    exact assembleLine_word v
  | instr i =>
    obtain rfl := encode_eq_of_decode hdecode
    rw [disassemble, hdecode]
    cases i with
    | nop => decide
    | crcInit => decide
    | crcByte b => exact assembleLine_crcByte b
    | crcRead => decide

/-- Settles O54: each text is assembled as it stands. -/
theorem assemblerExamples : Obligations.AssemblerExamples := by
  unfold Obligations.AssemblerExamples
  decide

/-! ## The pseudo-instructions (R60 to R62) -/

/-- The word of a byte is its opcode's first word and the byte. -/
theorem byteWord_eq_add {n : Nat} (h : n < 256) : byteWord n = 0x0200 + BitVec.ofNat 16 n := by
  have sum_eq : (0x0200 : CmdWord) + BitVec.ofNat 16 n = BitVec.ofNat 16 (2 * 256 + n) := (BitVec.ofNat_add ..).symm
  rw [sum_eq, byteWord, encode, eq_comm, eq_formatC_iff]
  exact ⟨opField_ofNat_mul_add 2 h, dataField_ofNat_mul_add 2 n⟩

theorem bytesOk_iff (imms : List Nat) : bytesOk imms = true ↔ imms ≠ [] ∧ ∀ n ∈ imms, n < 256 := by
  simp [bytesOk, imm8Ok]

theorem all_asciiOk_iff (cs : List Char) : cs.all asciiOk = true ↔ ∀ c ∈ cs, c.toNat < 128 := by
  simp [asciiOk]

/-- `crc32` of any operand is the command sequence of its bytes (30_encoding.md R62). -/
theorem expand_crc32 (data : AsmBytes) :
    AsmStmt.expand (.crc32 data) = crc32Words ((AsmBytes.values data).map (BitVec.ofNat 8)) := by
  rw [AsmStmt.expand, crc32Words, List.map_map]
  rfl

/-- Settles O55: a statement in range is its expansion, each byte a word of BYTE, and one out of range an error. -/
theorem pseudoInstructionsExpandInOrder : Obligations.PseudoInstructionsExpandInOrder := by
  unfold Obligations.PseudoInstructionsExpandInOrder
  refine ⟨fun imms hne hrange => ?bytes, fun cs hascii => ⟨?str, ?text⟩, fun imms hne hrange => ?list,
    fun n hrange => ?byte_error, fun imms herror => ?bytes_error⟩
  case bytes =>
    have hwf : (AsmStmt.crcBytes imms).wf = true := (bytesOk_iff imms).2 ⟨hne, hrange⟩
    rw [assembleStmt_of_wf hwf, AsmStmt.expand, List.map_congr_left fun n hn => byteWord_eq_add (hrange n hn)]
  case str =>
    have hwf : (AsmStmt.crcStr cs).wf = true := (all_asciiOk_iff cs).2 hascii
    have hword (c : Char) (hc : c ∈ cs) : byteWord c.toNat = 0x0200 + BitVec.ofNat 16 c.toNat :=
      byteWord_eq_add ((hascii c hc).trans (by decide))
    rw [assembleStmt_of_wf hwf, AsmStmt.expand, List.map_congr_left hword]
  case text =>
    have hwf : (AsmStmt.crc32 (.text cs)).wf = true := (all_asciiOk_iff cs).2 hascii
    rw [assembleStmt_of_wf hwf, expand_crc32, AsmBytes.values, List.map_map]
    rfl
  case list =>
    have hwf : (AsmStmt.crc32 (.list imms)).wf = true := (bytesOk_iff imms).2 ⟨hne, hrange⟩
    rw [assembleStmt_of_wf hwf, expand_crc32, AsmBytes.values]
  case byte_error => exact assembleStmt_of_not_wf (decide_eq_false (Nat.not_lt.2 hrange))
  case bytes_error =>
    obtain ⟨n, hn, hlarge⟩ := herror
    have not_ok : ¬ bytesOk imms = true := fun hok => absurd (((bytesOk_iff imms).1 hok).2 n hn) (Nat.not_lt.2 hlarge)
    exact assembleStmt_of_not_wf (Bool.not_eq_true _ ▸ not_ok)

end Sys2Proof.Machine
end
